-- ==== Sys2Proof/Word.lean ====
section
/-! DEFINITION. The words of the block: data bytes, counts, levels, immediates and command words, at the fixed
widths of spec/10_state.md rule R42. -/

namespace Sys2Proof

/-- A data byte, a channel value or a hue value: 8 bits (R42). -/
abbrev Byte := BitVec 8

/-- A byte count, a pixel count or a buffer index: 16 bits (R42). -/
abbrev Count := BitVec 16

/-- A brightness level: 2 bits (R31, R42). -/
abbrev Level2 := BitVec 2

/-- Up to three immediate bytes, the next one at the top: 24 bits (R24). -/
abbrev Immediate := BitVec 24

/-- A command word: 32 bits (R71). -/
abbrev CmdWord := BitVec 32

end Sys2Proof
end

