-- ==== Sys2Proof/Syntax.lean ====
section
/-! DEFINITION. The seven commands of the block (spec/30_encoding.md rule R70, spec/opcode_table.json), one
constructor per row, operands as rule R77 reads them. -/

namespace Sys2Proof

/-- A command (R70): the operands are the unsigned numbers of their fields (R77). -/
inductive Instr where
  /-- `INIT`: configure the pin as an output, driven low (R170). -/
  | init
  /-- `SEND_BYTE v`: send one byte (R114). -/
  | sendByte (v : Byte)
  /-- `WRITE_COLOR r, g, b`: send one pixel (R150). -/
  | writeColor (r g b : Byte)
  /-- `WRITE_HUE hue`: send one pixel of the hue wheel (R152). -/
  | writeHue (hue : Byte)
  /-- `SEND_STREAM len`: send `BUF[0 .. len-1]` as one frame and latch (R130). -/
  | sendStream (len : Count)
  /-- `CLEAR n`: send `n` all-off pixels and latch (R172). -/
  | clear (n : Count)
  /-- `SET_BRIGHT level`: set the brightness (R158). -/
  | setBright (level : Level2)
  deriving DecidableEq, Repr

end Sys2Proof
end

