-- ==== Sys2Proof/WellFormed.lean ====
section
/-! DEFINITION. Which commands have a word: all but `SET_BRIGHT 3`, whose word is reserved
(spec/30_encoding.md rule R79 (c)). -/

namespace Sys2Proof

/-- A command is well formed when it has a command word. The one check is on the level of `SET_BRIGHT`: level 3 is
reserved (R79 (c)). Every other operand may take every value of its field (R77); a count that is too large for
`CLEAR` and a hue above 191 are well spelt (R80). -/
def Instr.wf : Instr → Bool
  | .init => true
  | .sendByte _ => true
  | .writeColor _ _ _ => true
  | .writeHue _ => true
  | .sendStream _ => true
  | .clear _ => true
  | .setBright level => level != 3

end Sys2Proof
end

