-- ==== Sys2Proof/Decode.lean ====
section
/-! DEFINITION. The command word (spec/30_encoding.md part A): the fields of the five formats, the decoder, total and
rejecting reserved words by name, the encoder, and the opcode table's mask and match per row. -/

namespace Sys2Proof

/-- Why a word is reserved (R79). -/
inductive Reserved where
  /-- R79 (a): the opcode is `0x00` or one of `0x08 .. 0xFF`. -/
  | opcode
  /-- R79 (b): a bit that the format marks "must be 0" is 1. -/
  | mustBeZero
  /-- R79 (c): `SET_BRIGHT` with level 3. -/
  | level
  deriving DecidableEq, Repr

/-- `CW[31:24]`, the opcode (R71). -/
def opcodeOf (w : CmdWord) : BitVec 8 := w.extractLsb' 24 8

/-- `CW[23:0]`, the operand field (R71); format N wants it 0 (R72). -/
def operandField (w : CmdWord) : BitVec 24 := w.extractLsb' 0 24

/-- `CW[23:8]`, the must-be-zero field of format B (R73). -/
def zeroB (w : CmdWord) : BitVec 16 := w.extractLsb' 8 16

/-- `CW[7:0]`, the operand of format B and the blue lane of format C (R73, R74). -/
def byteLane0 (w : CmdWord) : Byte := w.extractLsb' 0 8

/-- `CW[15:8]`, the green lane of format C (R74). -/
def byteLane1 (w : CmdWord) : Byte := w.extractLsb' 8 8

/-- `CW[23:16]`, the red lane of format C and the must-be-zero field of format L (R74, R75). -/
def byteLane2 (w : CmdWord) : Byte := w.extractLsb' 16 8

/-- `CW[15:0]`, the count of format L (R75). -/
def countField (w : CmdWord) : Count := w.extractLsb' 0 16

/-- `CW[23:2]`, the must-be-zero field of format V (R76). -/
def zeroV (w : CmdWord) : BitVec 22 := w.extractLsb' 2 22

/-- `CW[1:0]`, the level of format V (R76). -/
def levelField (w : CmdWord) : Level2 := w.extractLsb' 0 2

/-- `i` if the must-be-zero bits are all 0, else the reason of R79 (b). -/
def ifZero (zeroBits : Bool) (i : Instr) : Except Reserved Instr :=
  if zeroBits then .ok i else .error .mustBeZero

/-- The decoder (R71 to R79, R181): every 32-bit word is exactly one of the seven commands, or reserved for a named
reason. -/
def decode (w : CmdWord) : Except Reserved Instr :=
  match (opcodeOf w).toNat with
  | 1 => ifZero (operandField w == 0) .init
  | 2 => ifZero (zeroB w == 0) (.sendByte (byteLane0 w))
  | 3 => .ok (.writeColor (byteLane2 w) (byteLane1 w) (byteLane0 w))
  | 4 => ifZero (zeroB w == 0) (.writeHue (byteLane0 w))
  | 5 => ifZero (byteLane2 w == 0) (.sendStream (countField w))
  | 6 => ifZero (byteLane2 w == 0) (.clear (countField w))
  | 7 =>
    if zeroV w == 0 then
      if levelField w == 3 then .error .level else .ok (.setBright (levelField w))
    else .error .mustBeZero
  | _ => .error .opcode

/-- The encoder, from the formats of R72 to R76 and the opcode map of R78. -/
def encode : Instr → CmdWord
  | .init => 0x01#8 ++ 0#24
  | .sendByte v => 0x02#8 ++ 0#16 ++ v
  | .writeColor r g b => 0x03#8 ++ r ++ g ++ b
  | .writeHue hue => 0x04#8 ++ 0#16 ++ hue
  | .sendStream len => 0x05#8 ++ 0#8 ++ len
  | .clear n => 0x06#8 ++ 0#8 ++ n
  | .setBright level => 0x07#8 ++ 0#22 ++ level

/-- A row of the opcode map (R78): a word `w` is the command exactly when `w & mask = match`. -/
structure OpcodeRow where
  mask : CmdWord
  pattern : CmdWord
  deriving DecidableEq, Repr

/-- The row of a command in the opcode map (R78). -/
def opcodeRow : Instr → OpcodeRow
  | .init => ⟨0xFFFFFFFF#32, 0x01000000#32⟩
  | .sendByte _ => ⟨0xFFFFFF00#32, 0x02000000#32⟩
  | .writeColor _ _ _ => ⟨0xFF000000#32, 0x03000000#32⟩
  | .writeHue _ => ⟨0xFFFFFF00#32, 0x04000000#32⟩
  | .sendStream _ => ⟨0xFFFF0000#32, 0x05000000#32⟩
  | .clear _ => ⟨0xFFFF0000#32, 0x06000000#32⟩
  | .setBright _ => ⟨0xFFFFFFFC#32, 0x07000000#32⟩

/-- The seven rows of the opcode map (R78), in its order. -/
def opcodeMap : List OpcodeRow :=
  [.init, .sendByte 0, .writeColor 0 0 0, .writeHue 0, .sendStream 0, .clear 0, .setBright 0].map opcodeRow

/-- `w & mask = match` (R78). -/
def OpcodeRow.matches (row : OpcodeRow) (w : CmdWord) : Bool := w &&& row.mask == row.pattern

/-- The decoder on a table word: `nbits` low bits of `w`, the bits above them 0, as the one 32-bit command word that
the command port carries (R71). -/
def decodeTableWord (nbits w : Nat) : Option Instr :=
  match decode (BitVec.ofNat 32 (w % 2 ^ nbits)) with
  | .ok i => some i
  | .error _ => none

end Sys2Proof
end

