-- ==== Sys2Proof/Config.lean ====
section
/-! DEFINITION. The implementation parameters of the block (spec/00_scope.md rules R4 to R10) and the example
parameter sets of spec/70_reset_and_hazards.md rule R249. What makes a set well formed is said in
Machine/Instantiate.lean. -/

namespace Sys2Proof

/-- The order of the three channel bytes of a pixel on the wire (R7). -/
inductive WireOrder where
  | grb
  | rgb
  deriving DecidableEq, Repr

/-- The parameters, fixed when the block is instantiated (R4 to R10). -/
structure Config where
  /-- `F_CLK`, in hertz (R4). -/
  fClk : Nat
  /-- `SUPPORTED_F`, the supported values of `F_CLK` (R4, decision D22: open). -/
  supportedF : List Nat
  /-- `H0`, ticks of HIGH of a "0" bit (R5). -/
  h0 : Nat
  /-- `H1`, ticks of HIGH of a "1" bit (R5). -/
  h1 : Nat
  /-- `P`, ticks of a whole bit period (R5). -/
  p : Nat
  /-- `LATCH_TICKS`, the latch period after `SEND_STREAM` (R6). -/
  latchTicks : Nat
  /-- `LATCH_TICKS_CLEAR`, the latch period after `CLEAR`; default `LATCH_TICKS` (R6). -/
  latchTicksClear : Nat := latchTicks
  /-- `WIRE_ORDER` (R7). -/
  wireOrder : WireOrder
  /-- `MAX_PIXELS` (R8). -/
  maxPixels : Nat
  /-- `BRIGHT_RESET`; default 0 (R9). -/
  brightReset : Level2 := 0
  /-- `LOW_MAX`, used by the receiver-side reading only (R10). -/
  lowMax : Nat
  deriving DecidableEq, Repr

/-- The frequencies of the spec's example parameter sets, used as `SUPPORTED_F` of the examples. DESIGN CHOICE
(notes/assumptions/2.md): the spec lists no supported frequency (N2). Unsafe only for a claim about `exampleF` itself. -/
def Config.exampleF : List Nat := [2000000, 8000000, 16000000]

/-- Example `EX8` of R249, with `WIRE_ORDER = GRB`, `MAX_PIXELS = 60` as spec/95_test_vectors.md uses it. -/
def Config.ex8 : Config where
  fClk := 8000000
  supportedF := Config.exampleF
  h0 := 3
  h1 := 6
  p := 10
  latchTicks := 2248
  wireOrder := .grb
  maxPixels := 60
  lowMax := 40

/-- Example `EX16` of R249. DESIGN CHOICE (notes/assumptions/20.md): `WIRE_ORDER = GRB` and `MAX_PIXELS = 60`, which the
spec gives for `EX8` only. Unsafe only for a claim about `ex16` itself. -/
def Config.ex16 : Config where
  fClk := 16000000
  supportedF := Config.exampleF
  h0 := 6
  h1 := 12
  p := 20
  latchTicks := 4496
  wireOrder := .grb
  maxPixels := 60
  lowMax := 80

/-- Example `EX2` of R249, the slowest clock for which a timing profile exists (R248). DESIGN CHOICE
(notes/assumptions/20.md): `WIRE_ORDER = GRB` and `MAX_PIXELS = 60`, which the spec gives for `EX8` only. Unsafe only for a
claim about `ex2` itself. -/
def Config.ex2 : Config where
  fClk := 2000000
  supportedF := Config.exampleF
  h0 := 1
  h1 := 2
  p := 3
  latchTicks := 562
  wireOrder := .grb
  maxPixels := 60
  lowMax := 10

end Sys2Proof
end

