-- ==== Sys2Proof/Machine/State.lean ====
section
/-! DEFINITION. The state of the block and of its surroundings (spec/10_state.md), the reasons a step can stop, and
the state after reset. INVENTORY.md lists every field with its rule and its reset value. -/

namespace Sys2Proof.Machine

/-- `PH`, the phase (R25). -/
inductive Phase where
  | idle
  | transmitting
  | latched
  deriving DecidableEq, Repr

/-- `SRCK`, where the bytes after the first come from (R24). -/
inductive Source where
  | imm
  | buf
  | zero
  deriving DecidableEq, Repr

/-- What the surroundings do next (R16): the host's moves between ticks, and a tick of the block with its two pins
`rst` (driven by the host) and `hold` (driven by the preemptor). -/
inductive Move where
  /-- L1: the host offers a command word on the command port and keeps offering it until it is taken. -/
  | offer (w : CmdWord)
  /-- L4: the host writes its interrupt-enable flag `IE`. -/
  | writeIe (v : Bool)
  /-- L3: the host writes a byte of `BUF`. -/
  | writeBuf (index : Count) (v : Byte)
  /-- One tick of the block; L5 is the pin `rst`, L6 the pin `hold`. -/
  | tick (rst hold : Bool)
  deriving DecidableEq, Repr

/-- `BUF` (R50): the listed bytes, indices strictly rising, no listed byte equal to what an unlisted index reads as. -/
abbrev Memory := List Host.Cell

/-- Why a run stops with a fault. The block itself raises no exception (R190); each of these is a move that the spec
says the host does not have (R245 D1, D2, D5), or an index that `BUF` does not have. All are SAFE: the model stops. -/
inductive Fault where
  /-- Raised by an access of the host or the block to `BUF` at an index above 65534, which does not exist (R38, R50).
  Safe. -/
  | bufNoSuchIndex
  /-- Raised by a host write to a byte of `BUF` borrowed by the `SEND_STREAM` in flight (R61, R235, R245 D1: no such
  move; U10: stuck). Safe. -/
  | hostWritesBorrowedBuf
  /-- Raised by a host write to `IE` while `GUARD = 1` (R241, R245 D2: no such move). Safe. -/
  | hostWritesIeUnderGuard
  /-- Raised by a host that changes the command word while it offers it, before it is taken (R64, R245 D5: no such
  move). Safe. -/
  | hostChangesOffer
  deriving DecidableEq, Repr

/-- Why a run is refused (R14, R191): the spec gives the command or the configuration no meaning. All are SAFE: the
model says nothing of such a run. -/
inductive Refusal where
  /-- An instruction of the table without a meaning yet, rejected by its arm of `exec`. No arm does. Safe. -/
  | notModelled (mnemonic : String)
  /-- `ReservedCommand`: raised by acceptance of a reserved word (R79, U3) and by `SET_BRIGHT 3` (R158, U4). Safe. -/
  | reservedCommand
  /-- `NotInitialised`: raised by a transmitting command accepted while `OE = 0` (R171). Safe. -/
  | notInitialised
  /-- `ClearTooLong`: raised by `CLEAR n` with `n > MAX_PIXELS` (R172, R176, U5). Safe. -/
  | clearTooLong
  /-- `ConfigNotWellFormed`: raised by instantiation, and by every step of a state whose parameters break R4 to R10
  (R191, R192, U12). Safe. -/
  | configNotWellFormed
  /-- Raised by every step of a state that carries the mark `REFUSED` (R14, R30, U16: a refusal ends what the model
  says of the run). Safe. -/
  | runRefused
  deriving DecidableEq, Repr

/-- The whole state. -/
structure State where
  /-- The parameters of the instance (R4 to R10); no step changes them. -/
  cfg : Config
  /-- `PH` (R25). -/
  ph : Phase
  /-- `DOUT` (R21). -/
  dout : Bool
  /-- `OE` (R22). -/
  oe : Bool
  /-- `SR` (R23). -/
  sr : Byte
  /-- `SRCK` (R24). -/
  srck : Source
  /-- `IMM` (R24). -/
  imm : Immediate
  /-- `IDX` (R24). -/
  idx : Count
  /-- `REM` (R24). -/
  rem : Count
  /-- `BITN` (R26). -/
  bitn : BitVec 4
  /-- `TCNT` (R27). -/
  tcnt : Nat
  /-- `LCNT` (R28). -/
  lcnt : Nat
  /-- `BRIGHT` (R31). -/
  bright : Level2
  /-- `GUARD` (R32). -/
  guard : Bool
  /-- `DO_LATCH` (R32). -/
  doLatch : Bool
  /-- `LSEL` (R32): false is `LATCH_TICKS`, true is `LATCH_TICKS_CLEAR`. -/
  lsel : Bool
  /-- `SAVED_IE` (R35). -/
  savedIe : Bool
  /-- `IE`, the host's interrupt-enable flag, shared with the block (R34). -/
  ie : Bool
  /-- `TIMING_FAULT`, a ghost bit (R30). -/
  timingFault : Bool
  /-- `REFUSED`, a ghost mark (R30). -/
  refused : Bool
  /-- How many bytes from index 0 of `BUF` the command in flight has borrowed: `len` of the `SEND_STREAM` in flight
  (R41, R60 (c), R235), 0 otherwise. The model's own field (notes/assumptions/7.md). -/
  borrowed : Count
  /-- `BUF` (R50). -/
  buf : Memory
  /-- The command port: `none` is `cmd_valid = 0`, `some w` is `cmd_valid = 1` with `cmd_word = w` (R39). -/
  offer : Option CmdWord
  /-- What the surroundings do next, the next move first; when it is empty every further step is a tick with
  `rst = 0` and `hold = 0`. The model's own field (notes/assumptions/5.md). -/
  moves : List Move
  deriving DecidableEq, Repr

/-- The block instantiated with the parameters `c`, just after reset: the values of R40, ghost bits clear, nothing
offered and nothing to come.

DESIGN CHOICE, unsafe (notes/assumptions/3.md): `IE`, which the spec leaves a free input, is 0.
DESIGN CHOICE, unsafe (notes/assumptions/4.md): no byte of `BUF` is listed, so every one reads 0x00. -/
def State.ofConfig (c : Config) : State where
  cfg := c
  ph := .idle
  dout := false
  oe := false
  sr := 0
  srck := .imm
  imm := 0
  idx := 0
  rem := 0
  bitn := 0
  tcnt := 0
  lcnt := 0
  bright := c.brightReset
  guard := false
  doLatch := false
  lsel := false
  savedIe := false
  ie := false
  timingFault := false
  refused := false
  borrowed := 0
  buf := []
  offer := none
  moves := []

/-- The machine right after reset (R40). DESIGN CHOICE, unsafe (notes/assumptions/1.md): the instance is the spec's
example `EX8`; statements quantify over all states, so over all parameter sets. -/
def State.reset : State := State.ofConfig Config.ex8

end Sys2Proof.Machine
end

