-- ==== Sys2Proof/Machine/Flags.lean ====
section
/-! DEFINITION. The status of the block (spec/10_state.md rule R29): it has no condition codes and no flag that a
command reads; its status outputs are functions of the phase. -/

namespace Sys2Proof.Machine

/-- The two-bit code of a phase (R25). -/
def phaseCode : Phase → BitVec 2
  | .idle => 0
  | .transmitting => 1
  | .latched => 2

/-- The two-bit code of a byte source (R24). -/
def sourceCode : Source → BitVec 2
  | .imm => 0
  | .buf => 1
  | .zero => 2

/-- `busy = (PH != IDLE)` (R29). -/
def State.busy (s : State) : Bool := s.ph != .idle

/-- The output `phase` (R29, R39). -/
def State.phasePort (s : State) : BitVec 2 := phaseCode s.ph

/-- `cmd_ready = (PH = IDLE) and not rst` (R39). -/
def State.cmdReady (s : State) (rst : Bool) : Bool := s.ph == .idle && !rst

/-- An effective hold (R19, R119): `hold = 1`, `IE = 1` and `PH != IDLE`. -/
def State.effectiveHold (s : State) (hold : Bool) : Bool := hold && s.ie && s.busy

/-- `latch_len()` (R32). -/
def State.latchLen (s : State) : Nat := if s.lsel then s.cfg.latchTicksClear else s.cfg.latchTicks

/-- `H(c)`, the HIGH ticks of a bit of value `c` (R110). -/
def highTicks (c : Config) (bit : Bool) : Nat := if bit then c.h1 else c.h0

/-- The bit on the wire, `SR[7]` (R23). -/
def State.wireBit (s : State) : Bool := s.sr.getLsbD 7

end Sys2Proof.Machine
end

