-- ==== Sys2Proof/Machine/Instantiate.lean ====
section
/-! DEFINITION. Well-formed parameters (spec/00_scope.md rules R4 to R10) and instantiation, which refuses the others
(spec/60_exceptions.md rules R191, R192). -/

namespace Sys2Proof

/-- R4: a positive frequency out of the supported set. -/
abbrev Config.ClockOk (c : Config) : Prop := 0 < c.fClk ∧ c.fClk ∈ c.supportedF

/-- R5: the timing profile, in integer arithmetic (1 ns is a billionth of a second). -/
abbrev Config.ProfileOk (c : Config) : Prop :=
  1 ≤ c.h0 ∧
  c.h0 * 1000000000 ≤ 500 * c.fClk ∧
  625 * c.fClk ≤ c.h1 * 1000000000 ∧
  1150 * c.fClk ≤ c.p * 1000000000 ∧
  c.h1 < c.p

/-- R6: a latch period of `k` ticks lasts at least 281 microseconds. -/
abbrev Config.LongEnough (c : Config) (k : Nat) : Prop := 281 * c.fClk ≤ k * 1000000

/-- R6: both latch periods are long enough. -/
abbrev Config.LatchOk (c : Config) : Prop := c.LongEnough c.latchTicks ∧ c.LongEnough c.latchTicksClear

/-- R8, R9: the bound of `CLEAR` and the reset value of `BRIGHT`. (R7 holds by the type of `wireOrder`.) -/
abbrev Config.LimitsOk (c : Config) : Prop := c.maxPixels ≤ 21845 ∧ c.brightReset ≠ 3

/-- R10: the parameter of the receiver-side reading. -/
abbrev Config.ReadingOk (c : Config) : Prop :=
  c.p - c.h0 + 1 ≤ c.lowMax ∧ c.lowMax * 1000000 < 281 * c.fClk

/-- A well-formed configuration meets the constraints of R4 to R10. -/
abbrev Config.WellFormed (c : Config) : Prop :=
  c.ClockOk ∧ c.ProfileOk ∧ c.LatchOk ∧ c.LimitsOk ∧ c.ReadingOk

namespace Machine

/-- Instantiation (R191, R192): the block in its reset state, or the refusal `ConfigNotWellFormed`; an ill-formed
instance does not exist. -/
def instantiate (c : Config) : Host.Outcome State Fault Refusal :=
  if c.WellFormed then .next (State.ofConfig c) else .refused .configNotWellFormed

end Machine

end Sys2Proof
end

