-- ==== Sys2Proof/Machine/Operands.lean ====
section
/-! DEFINITION. The operand arithmetic of the commands: the wire order of a pixel (spec/20_memory.md rule R53) and the
hue wheel (spec/42_color_codec.md rules R152 to R163). -/

namespace Sys2Proof.Machine

/-- A pixel: three channel values in the logical order red, green, blue (R18). -/
structure Pixel where
  r : Byte
  g : Byte
  b : Byte
  deriving DecidableEq, Repr

/-- The three bytes of a pixel in the order they go on the wire. -/
structure WireBytes where
  w0 : Byte
  w1 : Byte
  w2 : Byte
  deriving DecidableEq, Repr

/-- `wire3(r, g, b)` (R53). -/
def wire3 (o : WireOrder) (x : Pixel) : WireBytes :=
  match o with
  | .grb => ⟨x.g, x.r, x.b⟩
  | .rgb => ⟨x.r, x.g, x.b⟩

/-- The pixel whose wire bytes are given: what a receiver of that wire order makes of three bytes (R100). -/
def unwire3 (o : WireOrder) (x : WireBytes) : Pixel :=
  match o with
  | .grb => ⟨x.w1, x.w0, x.w2⟩
  | .rgb => ⟨x.w0, x.w1, x.w2⟩

/-- `phase = hue / 64`, that is `hue[7:6]` (R152, R160). -/
def huePhase (hue : Byte) : BitVec 2 := hue.extractLsb' 6 2

/-- `step = (hue mod 64) << BRIGHT`, that is `hue[5:0] << BRIGHT` in 8 bits (R152, R160; a left shift, conflict C3). -/
def hueStep (hue : Byte) (bright : Level2) : Byte := (hue.extractLsb' 0 6).setWidth 8 <<< bright.toNat

/-- `63 << BRIGHT`, the largest channel value of a level (R159). -/
def hueMax (bright : Level2) : Byte := 63#8 <<< bright.toNat

/-- `nstep = (63 << BRIGHT) - step` (R152, R161). -/
def hueNstep (hue : Byte) (bright : Level2) : Byte := hueMax bright - hueStep hue bright

/-- `hue_rgb(hue, BRIGHT)` (R152): the triple of the phase; nothing for phase 3, a hue of 192 or more (R155). -/
def hueRgb (hue : Byte) (bright : Level2) : Option Pixel :=
  let step := hueStep hue bright
  let nstep := hueNstep hue bright
  match (huePhase hue).toNat with
  | 0 => some ⟨nstep, step, 0⟩
  | 1 => some ⟨0, nstep, step⟩
  | 2 => some ⟨step, 0, nstep⟩
  | _ => none

/-- `IMM` for up to three bytes, the first at the top (R24): here `{w1, w2, 0x00}` (R150). -/
def immOf (w1 w2 : Byte) : Immediate := w1 ++ w2 ++ 0#8

/-- The number of bytes after the first of `CLEAR n`, `3 * n - 1` (R172), exact in 16 bits for `1 ≤ n ≤ 21845`. -/
def clearRem (n : Count) : Count := 3 * n - 1

end Sys2Proof.Machine
end

