-- ==== Sys2Proof/Machine/Ops.lean ====
section
/-! DEFINITION. The named operations: `BUF` (spec/20_memory.md), the byte source (spec/10_state.md rule R24), the
machinery every transmitting command shares (spec/40_bit_encoder.md rules R115 to R117), the guard and the latch
(spec/41_frame_transmitter.md rules R134 to R139) and reset (spec/70_reset_and_hazards.md rules R220, R221). The block
takes no exception (R190, R198): the guard and its release are all it saves and restores. -/

namespace Sys2Proof.Machine

/-! ### `BUF` -/

/-- How many bytes `BUF` has: indices `0 .. 65534` (R38, R50). -/
def bufSize : Nat := 65535

/-- What an unlisted byte of `BUF` reads as. DESIGN CHOICE, unsafe (notes/assumptions/4.md): the spec leaves the
contents of `BUF` unspecified. -/
def bufDefault : Byte := 0

/-- The canonical form: indices rise strictly from `lo` on, lie below `bufSize`, and no listed byte is the default. -/
def Memory.wfFrom (lo : Nat) : Memory → Bool
  | [] => true
  | (a, v) :: m => decide (lo ≤ a) && decide (a < bufSize) && (v != bufDefault) && Memory.wfFrom (a + 1) m

/-- The canonical form of `BUF`. -/
def Memory.wf (m : Memory) : Bool := Memory.wfFrom 0 m

/-- The byte at an index, listed or not. -/
def Memory.get : Memory → Nat → Byte
  | [], _ => bufDefault
  | (a, v) :: m, i => if i = a then v else Memory.get m i

/-- The memory with the byte at an index removed from the list. -/
def Memory.erase : Memory → Nat → Memory
  | [], _ => []
  | (a, v) :: m, i => if i = a then m else (a, v) :: Memory.erase m i

/-- The memory with a byte put into the list at its place. -/
def Memory.insert : Memory → Nat → Byte → Memory
  | [], i, b => [(i, b)]
  | (a, v) :: m, i, b =>
    if i < a then (i, b) :: (a, v) :: m
    else if i = a then (i, b) :: m
    else (a, v) :: Memory.insert m i b

/-- The memory with a byte written; writing the default takes the index off the list. -/
def Memory.set (m : Memory) (i : Nat) (b : Byte) : Memory :=
  if b = bufDefault then m.erase i else m.insert i b

/-- `BufRead(i)` (R13, R50): nothing at an index that does not exist. A read has no side effect (R56). -/
def bufRead (m : Memory) (i : Count) : Option Byte :=
  if i.toNat < bufSize then some (m.get i.toNat) else none

/-- A host write to `BUF` (R245 L3): nothing at an index that does not exist. -/
def bufWrite (m : Memory) (i : Count) (b : Byte) : Option Memory :=
  if i.toNat < bufSize then some (m.set i.toNat b) else none

/-! ### Updates that acceptance makes -/

/-- The command word is taken off the port (R181). -/
def State.takeOffer (s : State) : State := { s with offer := none }

/-- `SRCK <- SRC_IMM; IMM <- imm; REM <- rem` (R114, R150). -/
def State.loadImm (s : State) (imm : Immediate) (rem : Count) : State :=
  { s with srck := .imm, imm := imm, rem := rem }

/-- `SRCK <- SRC_BUF; IDX <- 1; REM <- len - 1` (R130); the bytes `BUF[0 .. len-1]` are borrowed until `busy` falls
(R60 (c)). -/
def State.loadBuf (s : State) (len : Count) : State :=
  { s with srck := .buf, idx := 1, rem := len - 1, borrowed := len }

/-- `SRCK <- SRC_ZERO; REM <- rem` (R172). -/
def State.loadZero (s : State) (rem : Count) : State := { s with srck := .zero, rem := rem }

/-- `GUARD <- 0; DO_LATCH <- doLatch; LSEL <- lsel` (R114, R138, R174). -/
def State.unguarded (s : State) (doLatch lsel : Bool) : State :=
  { s with guard := false, doLatch := doLatch, lsel := lsel }

/-- Taking the guard (R134), for a frame that a latch follows: `SAVED_IE <- IE; IE <- 0; GUARD <- 1`,
`DO_LATCH <- 1; LSEL <- lsel` (R130, R172). -/
def State.takeGuard (s : State) (lsel : Bool) : State :=
  { s with savedIe := s.ie, ie := false, guard := true, doLatch := true, lsel := lsel }

/-- Releasing the guard if it is held (R136): `if GUARD = 1: IE <- SAVED_IE; GUARD <- 0`. -/
def State.releaseGuard (s : State) : State :=
  { s with ie := if s.guard then s.savedIe else s.ie, guard := false }

/-- `start_tx(b)` (R115). -/
def State.startTx (s : State) (b : Byte) : State :=
  { s with sr := b, bitn := 8, tcnt := 0, dout := true, ph := .transmitting }

/-- `PH <- LATCHED; LCNT <- 0` (R117, R138). -/
def State.enterLatched (s : State) : State := { s with ph := .latched, lcnt := 0 }

/-- `PH <- IDLE`: `busy` falls, and what was borrowed of `BUF` is given back (R60 (d)). -/
def State.enterIdle (s : State) : State := { s with ph := .idle, borrowed := 0 }

/-- The acceptance of one pixel by `WRITE_COLOR` and `WRITE_HUE` (R150, R152): its three wire bytes as immediates, no
guard, no latch. -/
def State.sendPixel (s : State) (x : Pixel) : State :=
  let w := wire3 s.cfg.wireOrder x
  ((s.loadImm (immOf w.w1 w.w2) 2).unguarded false false).startTx w.w0

/-! ### The tick of a phase -/

/-- `next_byte()` (R24), for `REM > 0`: the byte and the state with the source advanced; a fault if the source is `BUF`
and the index does not exist, which no reachable state meets (R41). -/
def State.nextByte (s : State) : Except Fault (Byte × State) :=
  match s.srck with
  | .imm =>
    .ok (s.imm.extractLsb' 16 8, { s with imm := s.imm.extractLsb' 0 16 ++ 0#8, rem := s.rem - 1 })
  | .buf =>
    match bufRead s.buf s.idx with
    | some b => .ok (b, { s with idx := s.idx + 1, rem := s.rem - 1 })
    | none => .error .bufNoSuchIndex
  | .zero => .ok (0, { s with rem := s.rem - 1 })

/-- The next bit of the byte comes onto the wire (R117): `SR <- {SR[6:0], 0}; BITN <- BITN - 1; DOUT <- 1`. -/
def State.nextBit (s : State) : State := { s with sr := s.sr <<< 1, bitn := s.bitn - 1, dout := true }

/-- A new byte comes onto the wire (R117): `SR <- b; BITN <- 8; DOUT <- 1`. -/
def State.loadByte (s : State) (b : Byte) : State := { s with sr := b, bitn := 8, dout := true }

/-- The last bit of the last byte is done (R117): `BITN <- 0`, the guard is released, and the latch follows or the
block is idle. -/
def State.endOfBytes (s : State) : State :=
  let t := { s.releaseGuard with bitn := 0 }
  if s.doLatch then t.enterLatched else t.enterIdle

/-- `bit_end()` (R117), after the last tick of a bit period. -/
def State.bitEnd (s : State) : Except Fault State :=
  if 1 < s.bitn.toNat then .ok s.nextBit
  else if 0 < s.rem.toNat then
    match s.nextByte with
    | .ok (b, t) => .ok (t.loadByte b)
    | .error f => .error f
  else .ok s.endOfBytes

/-- `tx_tick()` (R116): one tick in `TRANSMITTING` that no hold freezes. -/
def State.txTick (s : State) : Except Fault State :=
  let c := s.tcnt + 1
  if c < s.cfg.p then
    .ok { s with tcnt := c, dout := if c = highTicks s.cfg s.wireBit then false else s.dout }
  else State.bitEnd { s with tcnt := 0 }

/-- `latch_tick()` (R139): one tick in `LATCHED` that no hold freezes. -/
def State.latchTick (s : State) : State :=
  let l := s.lcnt + 1
  if l < s.latchLen then { s with lcnt := l }
  else State.enterIdle { s with lcnt := 0, doLatch := false }

/-- A tick frozen by an effective hold (R118, R119): nothing changes but the ghost bit, set in `TRANSMITTING`. -/
def State.heldTick (s : State) : State :=
  { s with timingFault := s.timingFault || s.ph == .transmitting }

/-- `reset()` (R220, R221): the saved `IE` is written back if the guard is held, and every state element of the block
takes its value of R40. `IE` otherwise, the ghost bits, `BUF`, the command port and what the surroundings do next are
not touched (R30, R224). -/
def State.resetBlock (s : State) : State :=
  { State.ofConfig s.cfg with
    ie := if s.guard then s.savedIe else s.ie
    timingFault := s.timingFault
    refused := s.refused
    buf := s.buf
    offer := s.offer
    moves := s.moves }

end Sys2Proof.Machine
end

