-- ==== Sys2Proof/Machine/BitEncoder.lean ====
section
/-! DEFINITION. The Bit Encoder's command, `SEND_BYTE` (spec/40_bit_encoder.md rule R114). -/

namespace Sys2Proof.Machine

/-- `SEND_BYTE v` at acceptance (R114): one byte, no guard, no latch; `IE` is neither read nor written. -/
def execSendByte (v : Byte) (s : State) : Host.Outcome State Fault Refusal :=
  if s.oe then .next (((s.loadImm 0 0).unguarded false false).startTx v)
  else .refused .notInitialised

end Sys2Proof.Machine
end

