-- ==== Sys2Proof/Machine/ColorCodec.lean ====
section
/-! DEFINITION. The Color Codec's commands, `WRITE_COLOR`, `WRITE_HUE` and `SET_BRIGHT` (spec/42_color_codec.md rules
R150, R152, R158). -/

namespace Sys2Proof.Machine

/-- `WRITE_COLOR r, g, b` at acceptance (R150): three bytes in wire order; `BRIGHT` is not read (R151). -/
def execWriteColor (r g b : Byte) (s : State) : Host.Outcome State Fault Refusal :=
  if s.oe then .next (s.sendPixel ⟨r, g, b⟩)
  else .refused .notInitialised

/-- `WRITE_HUE hue` at acceptance (R152), with `BRIGHT` read in this tick; a hue of phase 3 changes nothing (R155), but
`OE = 0` is refused first. -/
def execWriteHue (hue : Byte) (s : State) : Host.Outcome State Fault Refusal :=
  if s.oe then
    match hueRgb hue s.bright with
    | some x => .next (s.sendPixel x)
    | none => .next s
  else .refused .notInitialised

/-- `SET_BRIGHT level` at acceptance (R158): level 3 is reserved; `OE` is not required. -/
def execSetBright (level : Level2) (s : State) : Host.Outcome State Fault Refusal :=
  if level = 3 then .refused .reservedCommand
  else .next { s with bright := level }

end Sys2Proof.Machine
end

