-- ==== Sys2Proof/Machine/FrameTransmitter.lean ====
section
/-! DEFINITION. The Frame Transmitter's command, `SEND_STREAM` (spec/41_frame_transmitter.md rules R130, R138). -/

namespace Sys2Proof.Machine

/-- `SEND_STREAM len` at acceptance (R130): the empty frame is the latch alone, with no guard taken and `IE` not
touched (R138); otherwise the guard is taken and `BUF[0]`, read in this tick (R57), is the first byte. -/
def execSendStream (len : Count) (s : State) : Host.Outcome State Fault Refusal :=
  if s.oe then
    if len = 0 then .next (s.unguarded true false).enterLatched
    else
      match bufRead s.buf 0 with
      | some b => .next (((s.takeGuard false).loadBuf len).startTx b)
      | none => .fault .bufNoSuchIndex
  else .refused .notInitialised

end Sys2Proof.Machine
end

