-- ==== Sys2Proof/Machine/StringController.lean ====
section
/-! DEFINITION. The String Controller's commands, `INIT` and `CLEAR` (spec/43_string_controller.md rules R170, R172,
R174). -/

namespace Sys2Proof.Machine

/-- `INIT` at acceptance (R170): `OE <- 1; DOUT <- 0`. -/
def execInit (s : State) : Host.Outcome State Fault Refusal :=
  .next { s with oe := true, dout := false }

/-- `CLEAR n` at acceptance (R172): `OE = 0` is tested before the bound (R191); the empty clear is the latch alone
(R174); otherwise the guard is taken and `3 * n` zero bytes are sent without a read of `BUF` (R51). -/
def execClear (n : Count) (s : State) : Host.Outcome State Fault Refusal :=
  if s.oe then
    if s.cfg.maxPixels < n.toNat then .refused .clearTooLong
    else if n = 0 then .next (s.unguarded true true).enterLatched
    else .next (((s.takeGuard true).loadZero (clearRem n)).startTx 0)
  else .refused .notInitialised

end Sys2Proof.Machine
end

