-- ==== Sys2Proof/Machine/Dispatch.lean ====
section
/-! DEFINITION. What each command does in its accept tick (spec/43_string_controller.md rule R181). -/

namespace Sys2Proof.Machine

def exec (i : Instr) (s : State) : Host.Outcome State Fault Refusal :=
  match i with
  | .init => Sys2Proof.Machine.execInit s
  | .sendByte v => Sys2Proof.Machine.execSendByte v s
  | .writeColor r g b => Sys2Proof.Machine.execWriteColor r g b s
  | .writeHue hue => Sys2Proof.Machine.execWriteHue hue s
  | .sendStream len => Sys2Proof.Machine.execSendStream len s
  | .clear n => Sys2Proof.Machine.execClear n s
  | .setBright level => Sys2Proof.Machine.execSetBright level s

end Sys2Proof.Machine
end

