-- ==== Sys2Proof/Machine/Tick.lean ====
section
/-! DEFINITION. One tick of the whole block (spec/40_bit_encoder.md rule R118), the host's moves between ticks
(spec/70_reset_and_hazards.md rule R245), and which of them comes next. -/

namespace Sys2Proof.Machine

/-- The outcome of a computation that can only fault. -/
def outcomeOf (r : Except Fault State) : Host.Outcome State Fault Refusal :=
  match r with
  | .ok s => .next s
  | .error f => .fault f

/-- `accept(w)` (R181): a reserved word is refused, any other is taken off the port and run. -/
def accept (w : CmdWord) (s : State) : Host.Outcome State Fault Refusal :=
  match decode w with
  | .ok i => exec i s.takeOffer
  | .error _ => .refused .reservedCommand

/-- One tick (R118, R197): reset first, then, when idle, acceptance of an offered command, then an effective hold, then
the tick of the phase. -/
def tick (rst hold : Bool) (s : State) : Host.Outcome State Fault Refusal :=
  if rst then .next s.resetBlock
  else
    match s.ph with
    | .idle =>
      match s.offer with
      | some w => accept w s
      | none => .next s
    | .transmitting => if hold && s.ie then .next s.heldTick else outcomeOf s.txTick
    | .latched => if hold && s.ie then .next s.heldTick else .next s.latchTick

/-- The host offers a word (R245 L1): it stands until it is taken (R39); another word before that is no move of the
host (R245 D5). -/
def hostOffer (w : CmdWord) (s : State) : Host.Outcome State Fault Refusal :=
  match s.offer with
  | none => .next { s with offer := some w }
  | some v => if v = w then .next s else .fault .hostChangesOffer

/-- The host writes `IE` (R245 L4): no move of the host while `GUARD = 1` (R241, R245 D2). -/
def hostWriteIe (v : Bool) (s : State) : Host.Outcome State Fault Refusal :=
  if s.guard then .fault .hostWritesIeUnderGuard else .next { s with ie := v }

/-- The host writes a byte of `BUF` (R245 L3): no move of the host at a borrowed index (R60 (c), R61, R235, R245 D1). -/
def hostWriteBuf (i : Count) (v : Byte) (s : State) : Host.Outcome State Fault Refusal :=
  if i.toNat < s.borrowed.toNat then .fault .hostWritesBorrowedBuf
  else
    match bufWrite s.buf i v with
    | some m => .next { s with buf := m }
    | none => .fault .bufNoSuchIndex

/-- One move of the surroundings. -/
def runMove (m : Move) (s : State) : Host.Outcome State Fault Refusal :=
  match m with
  | .offer w => hostOffer w s
  | .writeIe v => hostWriteIe v s
  | .writeBuf i v => hostWriteBuf i v s
  | .tick rst hold => tick rst hold s

/-- The move that comes next: the first of the list, or a plain tick when the list is empty. -/
def State.nextMove (s : State) : Move := s.moves.headD (.tick false false)

/-- The state with that move taken off the list. -/
def State.popMove (s : State) : State := { s with moves := s.moves.tail }

/-- One step of the run: nothing after a refusal (R14, R30), nothing on an ill-formed instance (R191), else the next
move. -/
def runNext (s : State) : Host.Outcome State Fault Refusal :=
  if s.refused then .refused .runRefused
  else if s.cfg.WellFormed then runMove s.nextMove s.popMove
  else .refused .configNotWellFormed

/-- `s` with a word standing on the command port, the block in the phase that accepts one, and a plain tick next. -/
def State.present (s : State) (w : CmdWord) : State :=
  { s with ph := .idle, offer := some w, moves := .tick false false :: s.moves }

end Sys2Proof.Machine
end

