-- ==== Sys2Proof/Machine/Step.lean ====
section
/-! DEFINITION. One step of the machine: the next move of its surroundings, a host move or a tick of the block. -/

namespace Sys2Proof.Machine

/-- One step: the move that comes next (`Machine/Tick.lean`). A tick is `step()` of spec/40_bit_encoder.md R118. -/
def step (s : State) : Host.Outcome State Fault Refusal := Sys2Proof.Machine.runNext s

/-- `s` with the command word `w` (its `nbits` low bits, the rest 0) standing on the command port, which is where the
block takes its next command from (R39, R181), and a tick with `rst = 0` coming next (notes/assumptions/12.md). -/
def State.withFetchWord (s : State) (nbits w : Nat) : State := s.present (BitVec.ofNat 32 (w % 2 ^ nbits))

end Sys2Proof.Machine
end

