-- ==== Sys2Proof/Machine/Wire.lean ====
section
/-! DEFINITION. The wire: pad levels, segments and traces (spec/00_scope.md rule R15), the wire encoding
(spec/30_encoding.md part B, rules R92 to R95), and what each command puts on the wire and for how long
(spec/40_bit_encoder.md rule R121, spec/70_reset_and_hazards.md rule R246). -/

namespace Sys2Proof.Machine

/-- A pad level (R15): `z` is a pad that is not driven. -/
inductive Level where
  | low
  | high
  | z
  deriving DecidableEq, Repr

/-- The pad level of a state (R22). -/
def State.pad (s : State) : Level := if s.oe then (if s.dout then .high else .low) else .z

/-- A segment `Seg(l, k)`: `k` ticks in a row at one pad level (R15). -/
structure Seg where
  level : Level
  ticks : Nat
  deriving DecidableEq, Repr

/-- A trace: segments in time order (R15). -/
abbrev Trace := List Seg

/-- The pad level of every tick of a trace. -/
def expand (t : Trace) : List Level := t.flatMap (fun g => List.replicate g.ticks g.level)

/-- The trace with a segment put before it, joined to a first segment of the same level. -/
def joinSeg (g : Seg) : Trace → Trace
  | [] => [g]
  | u :: t => if g.level = u.level then ⟨g.level, g.ticks + u.ticks⟩ :: t else g :: u :: t

/-- The normalised form of a trace: no two neighbours have the same level (R15). -/
def normalise (t : Trace) : Trace := t.foldr joinSeg []

/-- The normalised trace of a list of pad levels, one a tick. -/
def traceOf (ls : List Level) : Trace := normalise (ls.map (fun l => ⟨l, 1⟩))

/-- `pulse(c)` (R93, R94). -/
def pulse (c : Config) (bit : Bool) : Trace :=
  [⟨.high, highTicks c bit⟩, ⟨.low, c.p - highTicks c bit⟩]

/-- The bits of a byte, most significant first (R52). -/
def bitsOf (v : Byte) : List Bool := [7, 6, 5, 4, 3, 2, 1, 0].map v.getLsbD

/-- `byte_trace(v)` (R95). -/
def byteTrace (c : Config) (v : Byte) : Trace := (bitsOf v).flatMap (pulse c)

/-- `bytes_trace(bs)` (R95): nothing between bytes. -/
def bytesTrace (c : Config) (bs : List Byte) : Trace := bs.flatMap (byteTrace c)

/-- `latch_trace(k)` (R95). -/
def latchTrace (k : Nat) : Trace := [⟨.low, k⟩]

/-- The three bytes of a pixel on the wire, as a list. -/
def WireBytes.toList (w : WireBytes) : List Byte := [w.w0, w.w1, w.w2]

/-- `[BUF[0], ..., BUF[len-1]]`. -/
def bufBytes (m : Memory) (len : Nat) : List Byte := (List.range len).map (fun i => m.get i)

/-- The byte list `bs` that a command puts on the wire (R121). -/
def wireBytes (s : State) : Instr → List Byte
  | .init => []
  | .sendByte v => [v]
  | .writeColor r g b => (wire3 s.cfg.wireOrder ⟨r, g, b⟩).toList
  | .writeHue hue =>
    match hueRgb hue s.bright with
    | some x => (wire3 s.cfg.wireOrder x).toList
    | none => []
  | .sendStream len => bufBytes s.buf len.toNat
  | .clear n => List.replicate (3 * n.toNat) 0
  | .setBright _ => []

/-- The ticks of the latch period that a command performs after its bytes (R130, R172), 0 for the others. -/
def latchOf (c : Config) : Instr → Nat
  | .init => 0
  | .sendByte _ => 0
  | .writeColor _ _ _ => 0
  | .writeHue _ => 0
  | .sendStream _ => c.latchTicks
  | .clear _ => c.latchTicksClear
  | .setBright _ => 0

/-- The ticks during which a command keeps the block busy when nothing holds it (R246). -/
def busyTicks (c : Config) : Instr → Nat
  | .init => 0
  | .setBright _ => 0
  | .sendByte _ => 8 * c.p
  | .writeColor _ _ _ => 24 * c.p
  | .writeHue hue => if hue.toNat < 192 then 24 * c.p else 0
  | .sendStream len => 8 * c.p * len.toNat + c.latchTicks
  | .clear n => 24 * c.p * n.toNat + c.latchTicksClear

end Sys2Proof.Machine
end

