-- ==== Sys2Proof/Machine/Assembler.lean ====
section
/-! DEFINITION. The assembler lines of spec/30_encoding.md rules R90 and R91: a command's mnemonic with its operands, the
two pseudo-instructions, and the lines of a program that are host actions, as the moves they stand for. -/

namespace Sys2Proof.Machine

/-- The mnemonics: the seven commands (R70) and the two pseudo-instructions (R91). -/
inductive Mnemonic where
  | init
  | sendByte
  | writeColor
  | writeHue
  | sendStream
  | clear
  | setBright
  /-- `LATCH` = `SEND_STREAM 0`. -/
  | latch
  /-- `CLEAR_ALL` = `CLEAR MAX_PIXELS`. -/
  | clearAll
  deriving DecidableEq, Repr

/-- The command of a mnemonic with its operands; an operand that does not fit its field, or a wrong number of operands,
is an assembly error (R90). -/
def assemble (c : Config) (m : Mnemonic) (operands : List Nat) : Option Instr :=
  match m, operands with
  | .init, [] => some .init
  | .sendByte, [v] => if v < 256 then some (.sendByte (BitVec.ofNat 8 v)) else none
  | .writeColor, [r, g, b] =>
    if r < 256 ∧ g < 256 ∧ b < 256 then
      some (.writeColor (BitVec.ofNat 8 r) (BitVec.ofNat 8 g) (BitVec.ofNat 8 b))
    else none
  | .writeHue, [hue] => if hue < 256 then some (.writeHue (BitVec.ofNat 8 hue)) else none
  | .sendStream, [len] => if len < 65536 then some (.sendStream (BitVec.ofNat 16 len)) else none
  | .clear, [n] => if n < 65536 then some (.clear (BitVec.ofNat 16 n)) else none
  | .setBright, [level] => if level < 4 then some (.setBright (BitVec.ofNat 2 level)) else none
  | .latch, [] => some (.sendStream 0)
  | .clearAll, [] => some (.clear (BitVec.ofNat 16 c.maxPixels))
  | _, _ => none

/-- A line of a program (R90). -/
inductive HostLine where
  /-- A command: the host offers its word and waits until the block is idle again (notes/assumptions/21.md). -/
  | command (i : Instr)
  /-- `BUF[i] = v`. -/
  | buf (index : Count) (v : Byte)
  /-- `IE = v`. -/
  | ie (v : Bool)
  /-- `WAIT k`: `k` ticks pass with nothing offered. -/
  | wait (k : Nat)
  /-- `RESET`: the host asserts `rst` for one tick. -/
  | reset
  deriving DecidableEq, Repr

/-- The moves a line stands for when nothing holds the block: a command is offered, accepted in the next tick and runs for
its busy ticks (R181, R246).

DESIGN CHOICE (notes/assumptions/21.md): a line after a command, `WAIT` and `RESET` too, takes place at the earliest tick in
which the block is idle again; R90 does not say when it does, and Program 4 of spec/95_test_vectors.md has a `RESET` in the
middle of a `CLEAR`, which is written in `State.moves` itself. Unsafe for a claim about the lines of a program. -/
def HostLine.moves (c : Config) : HostLine → List Move
  | .command i => .offer (encode i) :: List.replicate (1 + busyTicks c i) (.tick false false)
  | .buf index v => [.writeBuf index v]
  | .ie v => [.writeIe v]
  | .wait k => List.replicate k (.tick false false)
  | .reset => [.tick true false]

/-- The moves of a program (R90): its lines in order, each as `HostLine.moves` times it (notes/assumptions/21.md). -/
def programMoves (c : Config) (ls : List HostLine) : List Move := ls.flatMap (HostLine.moves c)

end Sys2Proof.Machine
end

