-- ==== Sys2Proof/Machine/Ports.lean ====
section
/-! DEFINITION. The ports of the block that are functions of the state and of the pins of the tick (spec/10_state.md
rule R39). `busy`, `phase`, `cmd_ready` are in Machine/Flags.lean, the pad is in Machine/Wire.lean. -/

namespace Sys2Proof.Machine

/-- The last tick of a bit period (R116). -/
def State.lastTickOfBit (s : State) : Bool := decide (s.cfg.p ≤ s.tcnt + 1)

/-- The last tick of the last bit of the byte in `SR` (R117). -/
def State.lastTickOfByte (s : State) : Bool := s.lastTickOfBit && decide (s.bitn.toNat ≤ 1)

/-- The command that acceptance would take in this tick (R181). -/
def State.commandTaken (s : State) (rst : Bool) : Option Instr :=
  if s.cmdReady rst then
    match s.offer with
    | some w =>
      match decode w with
      | .ok i => some i
      | .error _ => none
    | none => none
  else none

/-- `buf_addr`: the index of the byte of `BUF` that the block reads in this tick, if it reads one (R57). The port's value
in other ticks is not used by anything (notes/assumptions/16.md). -/
def State.bufAddr (s : State) (rst hold : Bool) : Option Count :=
  match s.ph with
  | .idle =>
    match s.commandTaken rst with
    | some (.sendStream len) => if s.oe && len != 0 then some 0 else none
    | _ => none
  | .transmitting =>
    if !rst && !s.effectiveHold hold && s.lastTickOfByte && s.srck == .buf && s.rem != 0 then some s.idx else none
  | .latched => none

/-- Whether acceptance takes the guard in this tick (R134): `SEND_STREAM` with a byte to send, `CLEAR` with a pixel to
clear. -/
def State.takesGuard (s : State) (rst : Bool) : Bool :=
  s.oe &&
    match s.commandTaken rst with
    | some (.sendStream len) => len != 0
    | some (.clear n) => n != 0 && decide (n.toNat ≤ s.cfg.maxPixels)
    | _ => false

/-- `ie_we` and `ie_d` (R39): nothing when `ie_we = 0`, else the value the block writes into `IE` at the end of the tick:
the saved one by a reset under the guard (R221), 0 when the guard is taken (R134), the saved one at the end of the last
bit of a guarded command (R136). -/
def State.ieWrite (s : State) (rst hold : Bool) : Option Bool :=
  if rst then if s.guard then some s.savedIe else none
  else if s.takesGuard rst then some false
  else if s.ph == .transmitting && !s.effectiveHold hold && s.lastTickOfByte && s.rem == 0 && s.guard then
    some s.savedIe
  else none

end Sys2Proof.Machine
end

