-- ==== Sys2Proof/Machine/Receiver.lean ====
section
/-! DEFINITION. The receiver-side reading of a wire trace (spec/30_encoding.md part C, rules R96 to R103): bits,
latches, frames, bytes and pixels. It is a predicate on traces and says nothing of what a real LED shows (R103). -/

namespace Sys2Proof.Machine

/-- `bit_of(h)` (R97); nothing is `Indeterminate`. -/
def bitOf (c : Config) (h : Nat) : Option Bool :=
  if 1 ≤ h ∧ h * 1000000000 ≤ 500 * c.fClk then some false
  else if 625 * c.fClk ≤ h * 1000000000 then some true
  else none

/-- The reading of a LOW segment after a pulse's HIGH (R99). -/
inductive LowClass where
  /-- The same frame goes on. -/
  | goesOn
  /-- A latch. -/
  | latchLow
  | indeterminate
  deriving DecidableEq, Repr

/-- `low_class(l)` (R99). -/
def lowClass (c : Config) (l : Nat) : LowClass :=
  if l ≤ c.lowMax then .goesOn
  else if 281 * c.fClk ≤ l * 1000000 then .latchLow
  else .indeterminate

/-- An event of the reading (R98). -/
inductive Event where
  | bit (b : Bool)
  | latch
  deriving DecidableEq, Repr

/-- The loop of `decode(t)` (R98): a HIGH segment and a LOW segment at a time; nothing is `Indeterminate`. Segments that
do not alternate, which a normalised trace does not have, are `Indeterminate` too (notes/assumptions/13.md; safe). -/
def readPulses (c : Config) : Trace → Option (List Event)
  | [] => some []
  | [_] => none
  | g :: u :: t =>
    if g.level = .high ∧ u.level = .low then
      match bitOf c g.ticks with
      | none => none
      | some b =>
        if (g.ticks + u.ticks) * 1000000000 < 1150 * c.fClk then none
        else
          match lowClass c u.ticks with
          | .goesOn => (readPulses c t).map (fun es => .bit b :: es)
          | .latchLow => (readPulses c t).map (fun es => .bit b :: .latch :: es)
          | .indeterminate => none
    else none

/-- The trace without its leading LOW segment (R98). -/
def dropIdle : Trace → Trace
  | [] => []
  | g :: t => if g.level = .low then t else g :: t

/-- `decode(t)` (R98), for a normalised trace; nothing is `Indeterminate`, as a trace with a `Z` segment is (R101). -/
def readTrace (c : Config) (t : Trace) : Option (List Event) :=
  if t.any (fun g => g.level == .z) then none else readPulses c (dropIdle t)

/-- The events of a byte list and the latch after it (R102): its bits, most significant first, then the latch; a latch
with no bits before it reads as idle. -/
def eventsOf (bs : List Byte) : List Event :=
  (bs.flatMap bitsOf).map .bit ++ (if bs = [] then [] else [.latch])

/-- Events split at each latch (R100): the frames, each of at least one bit, and the open tail, sent but not yet
latched. -/
structure Frames where
  closed : List (List Bool)
  openTail : List Bool
  deriving DecidableEq, Repr

/-- The split, with the bits since the last latch at hand. -/
def framesFrom (bits : List Bool) : List Event → Frames
  | [] => ⟨[], bits⟩
  | .bit b :: es => framesFrom (bits ++ [b]) es
  | .latch :: es =>
    let f := framesFrom [] es
    ⟨if bits = [] then f.closed else bits :: f.closed, f.openTail⟩

/-- From events to frames (R100). -/
def framesOf (es : List Event) : Frames := framesFrom [] es

/-- The byte whose bits are given, the first bit being bit 7 (R100). -/
def byteOfBits (b7 b6 b5 b4 b3 b2 b1 b0 : Bool) : Byte :=
  BitVec.ofBool b7 ++ BitVec.ofBool b6 ++ BitVec.ofBool b5 ++ BitVec.ofBool b4 ++
    BitVec.ofBool b3 ++ BitVec.ofBool b2 ++ BitVec.ofBool b1 ++ BitVec.ofBool b0

/-- A frame's bits grouped by 8 from the first, and what is left over (R100). -/
def bytesOfBits : List Bool → List Byte × List Bool
  | b7 :: b6 :: b5 :: b4 :: b3 :: b2 :: b1 :: b0 :: rest =>
    let r := bytesOfBits rest
    (byteOfBits b7 b6 b5 b4 b3 b2 b1 b0 :: r.1, r.2)
  | rest => ([], rest)

/-- A frame's bytes grouped by 3 into pixels, in wire order, and what is left over (R100). -/
def pixelsOfBytes (o : WireOrder) : List Byte → List Pixel × List Byte
  | w0 :: w1 :: w2 :: rest =>
    let r := pixelsOfBytes o rest
    (unwire3 o ⟨w0, w1, w2⟩ :: r.1, r.2)
  | rest => ([], rest)

/-- A frame as pixels, pixel 0 first, with the remainder of a frame whose bit count is no multiple of 24; of the
remainder the reading says nothing (R100, U6). -/
structure FrameReading where
  pixels : List Pixel
  restBytes : List Byte
  restBits : List Bool
  deriving DecidableEq, Repr

/-- The reading of a frame's bits (R100). -/
def readFrame (o : WireOrder) (bits : List Bool) : FrameReading :=
  let b := bytesOfBits bits
  let p := pixelsOfBytes o b.1
  ⟨p.1, p.2, b.2⟩

end Sys2Proof.Machine
end

