-- ==== Sys2Proof/Safety.lean ====
section
/-! DEFINITION. Runs and what counts as a good one (spec/43_string_controller.md rule R184), the wire trace of a run, and
the invariant of spec/10_state.md rule R41. -/

namespace Sys2Proof.Machine

/-! ### Outcomes -/

/-- The next state of an outcome, if it has one. -/
def nextState (o : Host.Outcome State Fault Refusal) : Option State :=
  match o with
  | .next s => some s
  | .fault _ => none
  | .refused _ => none

/-- The refusal of an outcome, if it is one. -/
def refusalOf (o : Host.Outcome State Fault Refusal) : Option Refusal :=
  match o with
  | .next _ => none
  | .fault _ => none
  | .refused r => some r

/-- The fault of an outcome, if it is one. -/
def faultOf (o : Host.Outcome State Fault Refusal) : Option Fault :=
  match o with
  | .next _ => none
  | .fault f => some f
  | .refused _ => none

/-! ### Runs -/

/-- `k` steps; nothing if one of them does not answer a next state. -/
def runSteps (k : Nat) (s : State) : Option State := nextState (Host.Core.run Sys2Proof.core k s)

/-- One step of a run that is kept going in order to be judged (R14, R30): a refusal leaves the mark `REFUSED`, which
nothing clears, and a fault leaves the state where it was (stuck). -/
def State.advance (s : State) : State :=
  match step s with
  | .next t => t
  | .fault _ => s
  | .refused _ => { s with refused := true }

/-- `k` such steps. -/
def State.advances : Nat → State → State
  | 0, s => s
  | k + 1, s => State.advances k s.advance

/-- Whether the next move is a tick of the block. -/
def State.nextIsTick (s : State) : Bool :=
  match s.nextMove with
  | .tick _ _ => true
  | _ => false

/-- The pad levels held during the ticks among `k` steps of a run, one a tick (R15, R184), as far as the run goes. -/
def padTrace : Nat → State → List Level
  | 0, _ => []
  | k + 1, s =>
    (if s.nextIsTick then [s.pad] else []) ++
      match step s with
      | .next t => padTrace k t
      | .fault _ => []
      | .refused _ => []

/-- The wire trace of a run (R184): normalised, from the tick after the first acceptance of `INIT`, which is the first
tick in which the pad is driven. -/
def wireTrace (k : Nat) (s : State) : Trace := traceOf ((padTrace k s).dropWhile (fun l => l == .z))

/-- Whether a move offers a command. -/
def Move.offers : Move → Bool
  | .offer _ => true
  | _ => false

/-- Whether the first tick to come is one with `rst = 1`. -/
def rstNext : List Move → Bool
  | [] => false
  | .tick rst _ :: _ => rst
  | .offer _ :: ms => rstNext ms
  | .writeIe _ :: ms => rstNext ms
  | .writeBuf _ _ :: ms => rstNext ms

/-- The run is over (R184): the block is idle, not in reset, and the host offers no command and will offer none. -/
abbrev State.runOver (s : State) : Prop :=
  s.ph = .idle ∧ rstNext s.moves = false ∧ s.offer = none ∧ s.moves.all (fun m => !m.offers) = true

/-- The run is over and good (R184): in addition `REFUSED` and `TIMING_FAULT` are clear. -/
abbrev State.goodEnd (s : State) : Prop := s.runOver ∧ s.refused = false ∧ s.timingFault = false

/-- Nothing is offered and nothing is to come: every further step is a plain tick with nothing to accept. -/
abbrev State.quiet (s : State) : Prop := s.refused = false ∧ s.offer = none ∧ s.moves = []

/-- The next step is a tick with the pins given: the run is not refused, the instance is well formed, and a tick is the
move that comes next. -/
abbrev State.ticksNext (s : State) (rst hold : Bool) : Prop :=
  s.refused = false ∧ s.cfg.WellFormed ∧ s.nextMove = .tick rst hold

/-- The next step is a given move of the host. -/
abbrev State.hostNext (s : State) (m : Move) (ms : List Move) : Prop :=
  s.refused = false ∧ s.cfg.WellFormed ∧ s.moves = m :: ms

/-- `i` is offered to an idle block that will run it with nothing holding it: the pin is initialised, nothing else is to
come, and `i` has a word and is not a `CLEAR` above the bound. -/
abbrev State.offered (s : State) (i : Instr) : Prop :=
  s.refused = false ∧ s.ph = .idle ∧ s.oe = true ∧ s.moves = [] ∧ s.offer = some (encode i) ∧ i.wf = true ∧
    ∀ n, i = .clear n → n.toNat ≤ s.cfg.maxPixels

/-! ### The invariant of R41 -/

/-- Outside `TRANSMITTING`: `DOUT = 0`, `BITN = 0`, `TCNT = 0`. -/
abbrev State.InvRest (s : State) : Prop :=
  s.ph ≠ .transmitting → s.dout = false ∧ s.bitn = 0 ∧ s.tcnt = 0

/-- In `TRANSMITTING`: `1 <= BITN <= 8`, `TCNT < P`, `OE = 1`, and `DOUT` is 1 exactly while `TCNT < H(SR[7])`. -/
abbrev State.InvPulse (s : State) : Prop :=
  s.ph = .transmitting →
    1 ≤ s.bitn.toNat ∧ s.bitn.toNat ≤ 8 ∧ s.tcnt < s.cfg.p ∧ s.oe = true ∧
      s.dout = decide (s.tcnt < highTicks s.cfg s.wireBit)

/-- `LCNT` is 0 outside `LATCHED`, and in it `LCNT < latch_len()` and `GUARD = 0`. -/
abbrev State.InvLatch (s : State) : Prop :=
  (s.ph ≠ .latched → s.lcnt = 0) ∧ (s.ph = .latched → s.lcnt < s.latchLen ∧ s.guard = false)

/-- Under the guard the block is transmitting and `IE = 0`. -/
abbrev State.InvGuard (s : State) : Prop := s.guard = true → s.ph = .transmitting ∧ s.ie = false

/-- While a `SEND_STREAM` is transmitting, `IDX + REM` is its length; nothing is borrowed in `IDLE`. -/
abbrev State.InvStream (s : State) : Prop :=
  (s.srck = .buf ∧ s.ph = .transmitting → s.idx.toNat + s.rem.toNat = s.borrowed.toNat) ∧
    (s.ph = .idle → s.borrowed = 0)

/-- R41, with the well-formedness of the parameters (R4 to R10), the legal levels of `BRIGHT` (R31) and the canonical form
of `BUF`. -/
abbrev State.Inv (s : State) : Prop :=
  s.cfg.WellFormed ∧ s.InvRest ∧ s.InvPulse ∧ s.InvLatch ∧ s.InvGuard ∧ s.InvStream ∧ s.bright ≠ 3 ∧
    s.buf.wf = true

end Sys2Proof.Machine
end

