-- ==== Sys2Proof/Certificates/Slice0/Obligations.lean ====
section
/-! DEFINITION. The statements for the provers: what the spec's numbered rules say the commands, the tick, reset, the
wire and its reading do. -/

open Sys2Proof Sys2Proof.Machine

/-! ### Command words (spec/30_encoding.md part A) -/

/-- Words written out from the formats of R72 to R76 decode to the commands they stand for. -/
def Obligations.SpecWordsDecode : Prop :=
  decode 0x01000000#32 = .ok .init ∧
  decode 0x020000A5#32 = .ok (.sendByte 0xA5) ∧
  decode 0x030A141E#32 = .ok (.writeColor 10 20 30) ∧
  decode 0x04000020#32 = .ok (.writeHue 32) ∧
  decode 0x0500FFFF#32 = .ok (.sendStream 65535) ∧
  decode 0x0600003C#32 = .ok (.clear 60) ∧
  decode 0x07000002#32 = .ok (.setBright 2)

/-- Every well-formed command, at every value of every operand, is what its word decodes to. -/
def Obligations.DecodeOfEncode : Prop :=
  ∀ i : Instr, i.wf = true → decode (encode i) = .ok i

/-- Every word that decodes is the word of the command it decodes to, and that command is well formed: no word has two
meanings and no bit of a word is ignored. -/
def Obligations.EncodeOfDecode : Prop :=
  ∀ (w : CmdWord) (i : Instr), decode w = .ok i → i.wf = true ∧ encode i = w

/-- R78: a word is a command exactly when `w & mask = match`, its operands being the unsigned numbers of their fields
(R77); the one word of `SET_BRIGHT`'s row that is no command is that of level 3, reserved by R79 (c). -/
def Obligations.OpcodeMapDecides : Prop :=
  ∀ w : CmdWord,
    (decode w = .ok .init ↔ w &&& 0xFFFFFFFF#32 = 0x01000000#32) ∧
    (∀ v, decode w = .ok (.sendByte v) ↔
      w &&& 0xFFFFFF00#32 = 0x02000000#32 ∧ v = w.extractLsb' 0 8) ∧
    (∀ r g b, decode w = .ok (.writeColor r g b) ↔
      w &&& 0xFF000000#32 = 0x03000000#32 ∧
        r = w.extractLsb' 16 8 ∧ g = w.extractLsb' 8 8 ∧ b = w.extractLsb' 0 8) ∧
    (∀ hue, decode w = .ok (.writeHue hue) ↔
      w &&& 0xFFFFFF00#32 = 0x04000000#32 ∧ hue = w.extractLsb' 0 8) ∧
    (∀ len, decode w = .ok (.sendStream len) ↔
      w &&& 0xFFFF0000#32 = 0x05000000#32 ∧ len = w.extractLsb' 0 16) ∧
    (∀ n, decode w = .ok (.clear n) ↔
      w &&& 0xFFFF0000#32 = 0x06000000#32 ∧ n = w.extractLsb' 0 16) ∧
    (∀ level, decode w = .ok (.setBright level) ↔
      w &&& 0xFFFFFFFC#32 = 0x07000000#32 ∧ level = w.extractLsb' 0 2 ∧ level ≠ 3) ∧
    (decode w = .error .level ↔ w &&& 0xFFFFFFFC#32 = 0x07000000#32 ∧ w.extractLsb' 0 2 = 3)

/-- R79: which words are reserved, for which reason, and that accepting one is refused. -/
def Obligations.ReservedWordsRefused : Prop :=
  (∀ w : CmdWord,
    (decode w = .error .opcode ↔ (w.extractLsb' 24 8).toNat = 0 ∨ 8 ≤ (w.extractLsb' 24 8).toNat) ∧
    (decode w = .error .mustBeZero ↔
      (w.extractLsb' 24 8 = 1 ∧ w.extractLsb' 0 24 ≠ 0) ∨
      (w.extractLsb' 24 8 = 2 ∧ w.extractLsb' 8 16 ≠ 0) ∨
      (w.extractLsb' 24 8 = 4 ∧ w.extractLsb' 8 16 ≠ 0) ∨
      (w.extractLsb' 24 8 = 5 ∧ w.extractLsb' 16 8 ≠ 0) ∨
      (w.extractLsb' 24 8 = 6 ∧ w.extractLsb' 16 8 ≠ 0) ∨
      (w.extractLsb' 24 8 = 7 ∧ w.extractLsb' 2 22 ≠ 0)) ∧
    (decode w = .error .level ↔ w = 0x07000003#32)) ∧
  (∀ (s : State) (hold : Bool) (w : CmdWord) (why : Reserved),
    s.ticksNext false hold → s.ph = .idle → s.offer = some w → decode w = .error why →
      step s = .refused .reservedCommand)

/-! ### The tick (R118) -/

/-- R181: in a tick without reset, an idle block to which a word is offered that decodes to a command runs it, the word
being taken off the port; around the command, only the move that this tick was is used up. -/
def Obligations.StepRunsDecodedCommand : Prop :=
  ∀ (s : State) (hold : Bool) (w : CmdWord) (i : Instr),
    s.ticksNext false hold → s.ph = .idle → s.offer = some w → decode w = .ok i →
      step s = exec i { s with offer := none, moves := s.moves.tail }

/-- A word put on the command port of an idle block by `withFetchWord` is the command that the very next step runs. -/
def Obligations.PresentedWordRuns : Prop :=
  ∀ (s : State) (i : Instr), s.refused = false → s.cfg.WellFormed → s.ph = .idle → i.wf = true →
    step (s.withFetchWord 32 (encode i).toNat) = exec i { s with offer := none }

/-- R118: an idle block to which nothing is offered does nothing in a tick, and while the block is busy a tick neither
takes an offered word nor depends on it (R64, R182): whatever is offered, it goes on alike and the offer stands. -/
def Obligations.OfferWaitsWhileBusy : Prop :=
  (∀ (s : State) (hold : Bool), s.ticksNext false hold → s.ph = .idle → s.offer = none →
    step s = .next { s with moves := s.moves.tail }) ∧
  (∀ (s t : State) (hold : Bool) (o : Option CmdWord), s.ticksNext false hold → s.ph ≠ .idle → step s = .next t →
    s.cmdReady false = false ∧ step { s with offer := o } = .next { t with offer := o })

/-- R220, R221: a tick with `rst = 1`, in any state and whatever else stands on the pins, gives every state element of the
block its value of R40 and writes the saved `IE` back exactly if the guard was held; the ghost bits, `BUF` and the host's
offer are not touched; no command is ready to be taken; a further tick of reset changes nothing more. (Of the model's own
fields, `moves` loses this tick; what `borrowed` becomes is not said here.) -/
def Obligations.ResetTick : Prop :=
  ∀ (s : State) (hold : Bool), s.ticksNext true hold →
    s.cmdReady true = false ∧
    (∃ t, step s = .next t ∧
      t = { s with
        moves := s.moves.tail
        ie := if s.guard then s.savedIe else s.ie
        ph := .idle, dout := false, oe := false, bright := s.cfg.brightReset
        sr := 0, imm := 0, srck := .imm, idx := 0, rem := 0
        bitn := 0, tcnt := 0, lcnt := 0
        guard := false, doLatch := false, lsel := false, savedIe := false
        borrowed := t.borrowed }) ∧
    ∀ (t u : State) (hold' : Bool), step s = .next t → t.ticksNext true hold' → step t = .next u →
      u = { t with moves := t.moves.tail }

/-- R119: an effective hold changes nothing but the ghost bit, set exactly in `TRANSMITTING`; a hold is ignored when
`IE = 0` and when the block is idle. -/
def Obligations.HoldFreezes : Prop :=
  (∀ s : State, s.ticksNext false true → s.ie = true → s.ph = .transmitting →
    step s = .next { s with moves := s.moves.tail, timingFault := true }) ∧
  (∀ s : State, s.ticksNext false true → s.ie = true → s.ph = .latched →
    step s = .next { s with moves := s.moves.tail }) ∧
  (∀ (s : State) (ms : List Move), s.ie = false ∨ s.ph = .idle →
    step { s with moves := .tick false true :: ms } = step { s with moves := .tick false false :: ms })

/-- R116: a tick inside a bit period counts, and drops the pin at the end of the HIGH time of the bit on the wire; the last
tick of the period is `TCNT <- 0` and `bit_end()`, which `BitPeriodEnds` spells out. -/
def Obligations.TickInsideBit : Prop :=
  ∀ (s : State) (hold : Bool), s.ticksNext false hold → s.ph = .transmitting → (hold && s.ie) = false →
    (s.tcnt + 1 < s.cfg.p →
      step s = .next
        { s with
          moves := s.moves.tail
          tcnt := s.tcnt + 1
          dout :=
            if s.tcnt + 1 = (if s.sr.getLsbD 7 then s.cfg.h1 else s.cfg.h0) then false else s.dout }) ∧
    (s.cfg.p ≤ s.tcnt + 1 → step s = outcomeOf (State.bitEnd { s with moves := s.moves.tail, tcnt := 0 }))

/-- R117 with `next_byte()` of R24: what follows the last tick of a bit period: the next bit of the byte; the next byte out
of each of the three sources, with no tick between; or, after the last bit of the last byte, the release of the guard and
the latch or `IDLE`. (What the model's own field `borrowed` becomes is not said here.) -/
def Obligations.BitPeriodEnds : Prop :=
  ∀ (s : State) (hold : Bool), s.ticksNext false hold → s.ph = .transmitting → (hold && s.ie) = false →
    s.tcnt + 1 = s.cfg.p →
      (1 < s.bitn.toNat →
        step s = .next
          { s with moves := s.moves.tail, tcnt := 0, sr := s.sr <<< 1, bitn := s.bitn - 1, dout := true }) ∧
      (s.bitn.toNat ≤ 1 → 0 < s.rem.toNat → s.srck = .imm →
        step s = .next
          { s with
            moves := s.moves.tail, tcnt := 0, bitn := 8, dout := true
            sr := s.imm.extractLsb' 16 8, imm := s.imm.extractLsb' 0 16 ++ 0#8, rem := s.rem - 1 }) ∧
      (s.bitn.toNat ≤ 1 → 0 < s.rem.toNat → s.srck = .buf → ∀ b, bufRead s.buf s.idx = some b →
        step s = .next
          { s with
            moves := s.moves.tail, tcnt := 0, bitn := 8, dout := true
            sr := b, idx := s.idx + 1, rem := s.rem - 1 }) ∧
      (s.bitn.toNat ≤ 1 → 0 < s.rem.toNat → s.srck = .zero →
        step s = .next
          { s with
            moves := s.moves.tail, tcnt := 0, bitn := 8, dout := true
            sr := 0, rem := s.rem - 1 }) ∧
      (s.bitn.toNat ≤ 1 → s.rem = 0 → ∃ t, step s = .next t ∧
        t = { s with
          moves := s.moves.tail, tcnt := 0, bitn := 0
          ie := if s.guard then s.savedIe else s.ie
          guard := false
          ph := if s.doLatch then .latched else .idle
          lcnt := if s.doLatch then 0 else s.lcnt
          borrowed := t.borrowed })

/-- R139: the latch period counts to `latch_len()` and ends in `IDLE`; there the model's own field `borrowed` is 0
(notes/assumptions/7.md). -/
def Obligations.LatchTickCounts : Prop :=
  ∀ (s : State) (hold : Bool), s.ticksNext false hold → s.ph = .latched → (hold && s.ie) = false →
    (s.lcnt + 1 < (if s.lsel then s.cfg.latchTicksClear else s.cfg.latchTicks) →
      step s = .next { s with moves := s.moves.tail, lcnt := s.lcnt + 1 }) ∧
    ((if s.lsel then s.cfg.latchTicksClear else s.cfg.latchTicks) ≤ s.lcnt + 1 →
      step s = .next { s with moves := s.moves.tail, lcnt := 0, ph := .idle, doLatch := false, borrowed := 0 })

/-! ### The commands at acceptance -/

/-- R170: `INIT` makes the pin an output and drives it low, and changes nothing else; in an idle block whose pin is already
initialised it changes nothing. -/
def Obligations.InitCompletes : Prop :=
  (∀ s : State, ∃ t, exec .init s = .next t ∧ t = { s with oe := true, dout := false } ∧ t.pad = .low) ∧
  (∀ s : State, s.Inv → s.ph = .idle → s.oe = true → exec .init s = .next s)

/-- R114 (acceptance): `SEND_BYTE` starts its byte, with no guard and no latch. -/
def Obligations.SendByteCompletes : Prop :=
  ∀ (s : State) (v : Byte), s.oe = true →
    exec (.sendByte v) s = .next
      { s with
        srck := .imm, imm := 0, rem := 0
        guard := false, doLatch := false, lsel := false
        sr := v, bitn := 8, tcnt := 0, dout := true, ph := .transmitting }

/-- R150 (acceptance) with R53: `WRITE_COLOR` starts the three bytes of its pixel in the configured wire order. -/
def Obligations.WriteColorCompletes : Prop :=
  ∀ (s : State) (r g b : Byte), s.oe = true →
    (s.cfg.wireOrder = .grb →
      exec (.writeColor r g b) s = .next
        { s with
          srck := .imm, imm := r ++ b ++ 0#8, rem := 2
          guard := false, doLatch := false, lsel := false
          sr := g, bitn := 8, tcnt := 0, dout := true, ph := .transmitting }) ∧
    (s.cfg.wireOrder = .rgb →
      exec (.writeColor r g b) s = .next
        { s with
          srck := .imm, imm := g ++ b ++ 0#8, rem := 2
          guard := false, doLatch := false, lsel := false
          sr := r, bitn := 8, tcnt := 0, dout := true, ph := .transmitting })

/-- R151: `WRITE_COLOR` bypasses brightness: at any other level it does the same, or is refused alike. -/
def Obligations.WriteColorIgnoresBright : Prop :=
  ∀ (s : State) (r g b : Byte) (level : Level2),
    (s.oe = true → ∃ t, exec (.writeColor r g b) s = .next t ∧ t.bright = s.bright ∧
      exec (.writeColor r g b) { s with bright := level } = .next { t with bright := level }) ∧
    (s.oe = false → exec (.writeColor r g b) s = .refused .notInitialised ∧
      exec (.writeColor r g b) { s with bright := level } = .refused .notInitialised)

/-- R152 (acceptance), for the hues that render: `WRITE_HUE` does what `WRITE_COLOR` does with the triple of the hue wheel,
here in exact arithmetic, at the brightness of the accept tick. -/
def Obligations.WriteHueCompletes : Prop :=
  ∀ (s : State) (hue : Byte), s.oe = true → s.bright ≠ 3 → hue.toNat < 192 →
    ∃ (r g b : Byte) (t : State),
      exec (.writeHue hue) s = .next t ∧ exec (.writeColor r g b) s = .next t ∧
      (hue.toNat / 64 = 0 →
        r.toNat = 63 * 2 ^ s.bright.toNat - (hue.toNat % 64) * 2 ^ s.bright.toNat ∧
          g.toNat = (hue.toNat % 64) * 2 ^ s.bright.toNat ∧ b.toNat = 0) ∧
      (hue.toNat / 64 = 1 →
        r.toNat = 0 ∧ g.toNat = 63 * 2 ^ s.bright.toNat - (hue.toNat % 64) * 2 ^ s.bright.toNat ∧
          b.toNat = (hue.toNat % 64) * 2 ^ s.bright.toNat) ∧
      (hue.toNat / 64 = 2 →
        r.toNat = (hue.toNat % 64) * 2 ^ s.bright.toNat ∧ g.toNat = 0 ∧
          b.toNat = 63 * 2 ^ s.bright.toNat - (hue.toNat % 64) * 2 ^ s.bright.toNat)

/-- R155: phase 3 is reached exactly by a hue of 192 or more, which is a defined no-operation: nothing is sent and no state
element changes; on an uninitialised pin it is refused first. -/
def Obligations.HuePhaseThreeDoesNothing : Prop :=
  ∀ (s : State) (hue : Byte),
    ((huePhase hue).toNat = 3 ↔ 192 ≤ hue.toNat) ∧
    (192 ≤ hue.toNat →
      wireBytes s (.writeHue hue) = [] ∧
      (s.oe = true → exec (.writeHue hue) s = .next s) ∧
      (s.oe = false → exec (.writeHue hue) s = .refused .notInitialised))

/-- R130 (acceptance) with R134 and R138: `SEND_STREAM` takes the guard and starts with `BUF[0]`; the empty stream is the
latch alone, with no guard taken and `IE` not touched. -/
def Obligations.SendStreamCompletes : Prop :=
  (∀ (s : State) (len : Count), s.oe = true → len ≠ 0 →
    ∃ b, bufRead s.buf 0 = some b ∧
      exec (.sendStream len) s = .next
        { s with
          doLatch := true, lsel := false
          savedIe := s.ie, ie := false, guard := true
          srck := .buf, idx := 1, rem := len - 1, borrowed := len
          sr := b, bitn := 8, tcnt := 0, dout := true, ph := .transmitting }) ∧
  (∀ s : State, s.oe = true →
    exec (.sendStream 0) s = .next
      { s with doLatch := true, lsel := false, guard := false, ph := .latched, lcnt := 0 })

/-- R172 (acceptance) with R174: `CLEAR` takes the guard and starts `3 * n` zero bytes, with `3 * n - 1` exact in 16 bits
and no read of `BUF`; the empty clear is the latch alone; above the bound it is refused. -/
def Obligations.ClearCompletes : Prop :=
  (∀ (s : State) (n : Count), s.oe = true → n ≠ 0 → n.toNat ≤ s.cfg.maxPixels → s.cfg.maxPixels ≤ 21845 →
    ∃ t, exec (.clear n) s = .next t ∧ t.rem.toNat = 3 * n.toNat - 1 ∧
      t = { s with
        doLatch := true, lsel := true
        savedIe := s.ie, ie := false, guard := true
        srck := .zero, rem := t.rem
        sr := 0, bitn := 8, tcnt := 0, dout := true, ph := .transmitting }) ∧
  (∀ s : State, s.oe = true →
    exec (.clear 0) s = .next
      { s with doLatch := true, lsel := true, guard := false, ph := .latched, lcnt := 0 }) ∧
  (∀ (s : State) (n : Count), s.oe = true → s.cfg.maxPixels < n.toNat →
    exec (.clear n) s = .refused .clearTooLong)

/-- R158: `SET_BRIGHT` sets the level and nothing else, whatever `OE` is; level 3 is refused. -/
def Obligations.SetBrightCompletes : Prop :=
  (∀ (s : State) (level : Level2), level ≠ 3 → exec (.setBright level) s = .next { s with bright := level }) ∧
  (∀ s : State, exec (.setBright 3) s = .refused .reservedCommand)

/-- R171: a reset leaves `OE = 0`, and then the pad is not driven and the five transmitting commands are refused, with every
operand; `INIT` and `SET_BRIGHT` (of a level it has) are accepted whatever `OE` is. -/
def Obligations.UninitialisedRefused : Prop :=
  ∀ s : State,
    s.resetBlock.oe = false ∧
    (s.oe = false → s.pad = .z ∧
      (∀ v, exec (.sendByte v) s = .refused .notInitialised) ∧
      (∀ r g b, exec (.writeColor r g b) s = .refused .notInitialised) ∧
      (∀ hue, exec (.writeHue hue) s = .refused .notInitialised) ∧
      (∀ len, exec (.sendStream len) s = .refused .notInitialised) ∧
      (∀ n, exec (.clear n) s = .refused .notInitialised)) ∧
    (∃ t, exec .init s = .next t) ∧
    (∀ level, level ≠ 3 → ∃ t, exec (.setBright level) s = .next t)

/-- R115: every command that starts to transmit leaves `BITN = 8`, `TCNT = 0`, `DOUT = 1`, `PH = TRANSMITTING` and the first
byte of what it sends in `SR`; the others leave the phase machine where R180 says. -/
def Obligations.FirstByteLoaded : Prop :=
  ∀ (s t : State) (i : Instr), exec i s = .next t →
    match wireBytes s i with
    | b :: _ => t.sr = b ∧ t.bitn = 8 ∧ t.tcnt = 0 ∧ t.dout = true ∧ t.ph = .transmitting
    | [] => t.ph = (if i = .sendStream 0 ∨ i = .clear 0 then .latched else s.ph)

/-! ### Frames -/

/-- The unguarded senders change only the byte source, the pulse registers, the control bits and the phase: not `OE`,
`BRIGHT`, `IE`, `SAVED_IE`, `IDX`, `LCNT`, the ghost bits, the parameters, the port, nor any byte of `BUF`. -/
def Obligations.UnguardedSendersFrame : Prop :=
  ∀ (s t : State) (i : Instr),
    ((∃ v, i = .sendByte v) ∨ (∃ r g b, i = .writeColor r g b) ∨ ∃ hue, i = .writeHue hue) →
    exec i s = .next t →
      t = { s with
        ph := t.ph, dout := t.dout, sr := t.sr, srck := t.srck, imm := t.imm, rem := t.rem
        bitn := t.bitn, tcnt := t.tcnt, guard := t.guard, doLatch := t.doLatch, lsel := t.lsel } ∧
      ∀ a, bufRead t.buf a = bufRead s.buf a

/-- `SEND_STREAM` and `CLEAR` change in addition the interruption state, and the latch counter when they send nothing:
not `OE`, `BRIGHT`, `IMM`, the ghost bits, the parameters, the port, nor any byte of `BUF`; and `CLEAR` not `IDX`. -/
def Obligations.GuardedSendersFrame : Prop :=
  ∀ (s t : State) (i : Instr), ((∃ len, i = .sendStream len) ∨ ∃ n, i = .clear n) → exec i s = .next t →
    t = { s with
      ph := t.ph, dout := t.dout, sr := t.sr, srck := t.srck, idx := t.idx, rem := t.rem
      bitn := t.bitn, tcnt := t.tcnt, lcnt := t.lcnt, guard := t.guard, doLatch := t.doLatch, lsel := t.lsel
      savedIe := t.savedIe, ie := t.ie, borrowed := t.borrowed } ∧
    ((∃ n, i = .clear n) → t.idx = s.idx ∧ t.borrowed = s.borrowed) ∧
    ∀ a, bufRead t.buf a = bufRead s.buf a

/-- `INIT` and `SET_BRIGHT` send nothing: `INIT` changes only `OE` and `DOUT`, `SET_BRIGHT` only `BRIGHT`, and neither any
byte of `BUF`. -/
def Obligations.SilentCommandsFrame : Prop :=
  (∀ s t : State, exec .init s = .next t →
    t = { s with oe := t.oe, dout := t.dout } ∧ ∀ a, bufRead t.buf a = bufRead s.buf a) ∧
  (∀ (s t : State) (level : Level2), exec (.setBright level) s = .next t →
    t = { s with bright := t.bright } ∧ ∀ a, bufRead t.buf a = bufRead s.buf a)

/-- R50, R132, R224: no tick of the block, accepting, transmitting, latching, held or in reset, writes a byte of `BUF`, and
none changes the parameters of the instance (R33). -/
def Obligations.BlockNeverWritesBuf : Prop :=
  ∀ (s t : State) (rst hold : Bool), s.ticksNext rst hold → step s = .next t →
    t.buf = s.buf ∧ t.cfg = s.cfg ∧ ∀ a, bufRead t.buf a = bufRead s.buf a

/-! ### The host -/

/-- R245 L3, L4, L1: the moves the host has. A write to a byte of `BUF` that is not borrowed is read back there and leaves
every other byte and everything else alone; a write of `IE` without the guard sets it; an offer on a free port stands. -/
def Obligations.HostMovesTakeEffect : Prop :=
  (∀ (s : State) (ms : List Move) (i : Count) (v : Byte), s.hostNext (.writeBuf i v) ms → s.buf.wf = true →
    s.borrowed.toNat ≤ i.toNat → i.toNat ≤ 65534 →
      ∃ m, step s = .next { s with moves := ms, buf := m } ∧ m.wf = true ∧
        ∀ a, bufRead m a = if a = i then some v else bufRead s.buf a) ∧
  (∀ (s : State) (ms : List Move) (v : Bool), s.hostNext (.writeIe v) ms → s.guard = false →
    step s = .next { s with moves := ms, ie := v }) ∧
  (∀ (s : State) (ms : List Move) (w : CmdWord), s.hostNext (.offer w) ms → s.offer = none ∨ s.offer = some w →
    step s = .next { s with moves := ms, offer := some w })

/-- R245 D1, D2, D5 and R50: the moves the host does not have stop the run, each under its own name. -/
def Obligations.HostDutiesStop : Prop :=
  (∀ (s : State) (ms : List Move) (i : Count) (v : Byte), s.hostNext (.writeBuf i v) ms →
    i.toNat < s.borrowed.toNat → step s = .fault .hostWritesBorrowedBuf) ∧
  (∀ (s : State) (ms : List Move) (i : Count) (v : Byte), s.hostNext (.writeBuf i v) ms →
    s.borrowed.toNat ≤ i.toNat → 65534 < i.toNat → step s = .fault .bufNoSuchIndex) ∧
  (∀ (s : State) (ms : List Move) (v : Bool), s.hostNext (.writeIe v) ms → s.guard = true →
    step s = .fault .hostWritesIeUnderGuard) ∧
  (∀ (s : State) (ms : List Move) (w v : CmdWord), s.hostNext (.offer w) ms → s.offer = some v → v ≠ w →
    step s = .fault .hostChangesOffer)

/-- R14, R30, R191, R192: a refused run goes no further, an ill-formed instance does not run and is not instantiated, and a
well-formed one starts in its reset state. -/
def Obligations.RefusedAndIllFormedStop : Prop :=
  (∀ s : State, s.refused = true → step s = .refused .runRefused) ∧
  (∀ s : State, s.refused = false → ¬ s.cfg.WellFormed → step s = .refused .configNotWellFormed) ∧
  (∀ c : Config, ¬ c.WellFormed → instantiate c = .refused .configNotWellFormed) ∧
  (∀ c : Config, c.WellFormed → instantiate c = .next (State.ofConfig c))

/-! ### Arithmetic of the Color Codec -/

/-- R156: one channel is `step`, one is `nstep`, one is 0 (blue, red, green in phase 0, 1, 2), and `step + nstep` is
`63 << brightness`. -/
def Obligations.HueChannels : Prop :=
  ∀ (hue : Byte) (bright : Level2), hue.toNat < 192 → bright ≠ 3 →
    ∃ x, hueRgb hue bright = some x ∧
      (hueStep hue bright).toNat + (hueNstep hue bright).toNat = 63 * 2 ^ bright.toNat ∧
      (hueStep hue bright).toNat = (hue.toNat % 64) * 2 ^ bright.toNat ∧
      (hue.toNat / 64 = 0 → x = ⟨hueNstep hue bright, hueStep hue bright, 0⟩) ∧
      (hue.toNat / 64 = 1 → x = ⟨0, hueNstep hue bright, hueStep hue bright⟩) ∧
      (hue.toNat / 64 = 2 → x = ⟨hueStep hue bright, 0, hueNstep hue bright⟩)

/-- R157 (conflict C2): the colours at the three phase boundaries; of the 192 hues exactly these three pairs have equal
colours, so a level has 189; and within a phase neighbouring hues differ by `1 << BRIGHT` in two channels, one up and one
down: here `step` and `nstep`. -/
def Obligations.HueWheelContinuous : Prop :=
  (∀ bright : Level2, bright ≠ 3 →
    hueRgb 63 bright = some ⟨0, hueMax bright, 0⟩ ∧ hueRgb 64 bright = some ⟨0, hueMax bright, 0⟩ ∧
    hueRgb 127 bright = some ⟨0, 0, hueMax bright⟩ ∧ hueRgb 128 bright = some ⟨0, 0, hueMax bright⟩ ∧
    hueRgb 191 bright = some ⟨hueMax bright, 0, 0⟩ ∧ hueRgb 0 bright = some ⟨hueMax bright, 0, 0⟩) ∧
  (∀ (hue hue' : Byte) (bright : Level2), bright ≠ 3 → hue.toNat < hue'.toNat → hue'.toNat < 192 →
    (hueRgb hue bright = hueRgb hue' bright ↔
      (hue.toNat = 63 ∧ hue'.toNat = 64) ∨ (hue.toNat = 127 ∧ hue'.toNat = 128) ∨
        (hue.toNat = 0 ∧ hue'.toNat = 191))) ∧
  (∀ (hue : Byte) (bright : Level2), bright ≠ 3 → hue.toNat % 64 < 63 →
    (hueStep (hue + 1) bright).toNat = (hueStep hue bright).toNat + 2 ^ bright.toNat ∧
    (hueNstep hue bright).toNat = (hueNstep (hue + 1) bright).toNat + 2 ^ bright.toNat)

/-- R153: what `WRITE_HUE` does depends on the hue, the brightness and the wire order and on nothing else: two runs that
agree on these send the same bytes in the same way. -/
def Obligations.WriteHueIsPure : Prop :=
  ∀ (s s' : State) (hue : Byte), s.oe = true → s'.oe = true → hue.toNat < 192 → s.bright = s'.bright →
    s.cfg.wireOrder = s'.cfg.wireOrder →
      ∃ t t', exec (.writeHue hue) s = .next t ∧ exec (.writeHue hue) s' = .next t' ∧
        t.sr = t'.sr ∧ t.imm = t'.imm ∧ t.rem = t'.rem ∧ t.srck = t'.srck ∧ t.bitn = t'.bitn ∧ t.tcnt = t'.tcnt ∧
        t.ph = t'.ph ∧ t.dout = t'.dout ∧ t.guard = t'.guard ∧ t.doLatch = t'.doLatch ∧ t.lsel = t'.lsel

/-! ### Invariants and whole-machine rules -/

/-- R40, R41: the invariant holds after reset of every well-formed instance, and of the example instance, which is the
model's choice with its `SUPPORTED_F` (notes/assumptions/1.md, 2.md). -/
def Obligations.ResetMeetsInvariant : Prop :=
  State.reset.Inv ∧ ∀ (c : Config) (s : State), instantiate c = .next s → s.Inv

/-- R41: every step, a tick of any kind or a move of the host, keeps the invariant, from every state that meets it. -/
def Obligations.StepKeepsInvariant : Prop :=
  ∀ s t : State, s.Inv → step s = .next t → t.Inv

/-- R31: only `SET_BRIGHT` and reset change `BRIGHT`. -/
def Obligations.BrightChangesOnly : Prop :=
  ∀ s t : State, step s = .next t →
    t.bright = s.bright ∨
    (∃ hold, s.nextMove = .tick true hold ∧ t.bright = s.cfg.brightReset) ∨
    (∃ hold level, s.nextMove = .tick false hold ∧ s.ph = .idle ∧ s.offer = some (encode (.setBright level)) ∧
      level ≠ 3 ∧ t.bright = level)

/-- R22: only `INIT` sets `OE` and only reset clears it. -/
def Obligations.OutputEnableChangesOnly : Prop :=
  ∀ s t : State, step s = .next t →
    t.oe = s.oe ∨
    (∃ hold, s.nextMove = .tick true hold ∧ t.oe = false) ∨
    (∃ hold, s.nextMove = .tick false hold ∧ s.ph = .idle ∧ s.offer = some (encode .init) ∧ t.oe = true)

/-- R34, R39: the block writes `IE` exactly when its port `ie_we` says so, with the value of `ie_d`, and the host's write
is the only other. -/
def Obligations.InterruptEnablePort : Prop :=
  (∀ (s t : State) (rst hold : Bool), s.ticksNext rst hold → step s = .next t →
    t.ie = (s.ieWrite rst hold).getD s.ie) ∧
  (∀ (s t : State) (m : Move) (ms : List Move), s.hostNext m ms → (∀ rst hold, m ≠ .tick rst hold) →
    step s = .next t → t.ie = s.ie ∨ ∃ v, m = .writeIe v ∧ s.guard = false ∧ t.ie = v)

/-- R56, R57, R61: a tick depends on `BUF` through the byte at `buf_addr` alone, in the ticks in which the block reads one:
with any other contents that agree there it goes on alike. -/
def Obligations.ReadsOnlyAddressedByte : Prop :=
  ∀ (s t : State) (rst hold : Bool) (m : Memory), s.ticksNext rst hold →
    (∀ a, s.bufAddr rst hold = some a → bufRead m a = bufRead s.buf a) →
    step s = .next t → step { s with buf := m } = .next { t with buf := m }

/-- R30, R119: `TIMING_FAULT` is set by an effective hold in `TRANSMITTING` and by nothing else, and nothing clears it. -/
def Obligations.TimingFaultExactly : Prop :=
  ∀ s t : State, step s = .next t →
    t.timingFault =
      (s.timingFault ||
        (decide (s.nextMove = .tick false true) && s.ie && decide (s.ph = .transmitting)))

/-- R14, R30: the mark `REFUSED` is left by a refusal, is kept for the whole run, and a run that carries it is never
good; nor is one that carries `TIMING_FAULT`, which is kept as well. -/
def Obligations.GhostMarksStay : Prop :=
  (∀ (s : State) (r : Refusal), step s = .refused r → s.advance.refused = true) ∧
  (∀ (s : State) (k : Nat), s.refused = true → (s.advances k).refused = true ∧ ¬ (s.advances k).goodEnd) ∧
  (∀ (s : State) (k : Nat), s.timingFault = true → (s.advances k).timingFault = true ∧ ¬ (s.advances k).goodEnd)

/-- R180: the transitions of the phase machine: a tick that changes the phase is one of those of the table, and there is none
from `LATCHED` to `TRANSMITTING`; the host's moves do not change it. -/
def Obligations.PhaseTransitions : Prop :=
  ∀ s t : State, step s = .next t → t.ph ≠ s.ph →
    (∃ hold, s.nextMove = .tick true hold ∧ t.ph = .idle) ∨
    (∃ hold i, s.nextMove = .tick false hold ∧ s.ph = .idle ∧ s.offer = some (encode i) ∧ s.oe = true ∧
      (∀ n, i = .clear n → n.toNat ≤ s.cfg.maxPixels) ∧
      t.ph = (if i = .sendStream 0 ∨ i = .clear 0 then .latched else .transmitting) ∧
      (wireBytes s i = [] → i = .sendStream 0 ∨ i = .clear 0)) ∨
    (∃ hold, s.nextMove = .tick false hold ∧ s.ph = .transmitting ∧ (hold && s.ie) = false ∧
      s.cfg.p ≤ s.tcnt + 1 ∧ s.bitn.toNat ≤ 1 ∧ s.rem = 0 ∧
      t.ph = (if s.doLatch then .latched else .idle)) ∨
    (∃ hold, s.nextMove = .tick false hold ∧ s.ph = .latched ∧ (hold && s.ie) = false ∧
      s.latchLen ≤ s.lcnt + 1 ∧ t.ph = .idle)

/-- R190, R191: from a state that meets the invariant a tick never faults, and it refuses only an idle block's acceptance of
a command that one of the three reasons stops: a reserved word, one of the five transmitting commands before `INIT`, a
`CLEAR` above the bound. -/
def Obligations.TicksNeverFault : Prop :=
  ∀ (s : State) (rst hold : Bool), s.Inv → s.ticksNext rst hold →
    (∃ t, step s = .next t) ∨
    (rst = false ∧ s.ph = .idle ∧ ∃ w, s.offer = some w ∧
      ((step s = .refused .reservedCommand ∧ ∃ why, decode w = .error why) ∨
       (step s = .refused .notInitialised ∧ s.oe = false ∧ ∃ i, decode w = .ok i ∧
          ((∃ v, i = .sendByte v) ∨ (∃ r g b, i = .writeColor r g b) ∨ (∃ hue, i = .writeHue hue) ∨
            (∃ len, i = .sendStream len) ∨ ∃ n, i = .clear n)) ∨
       (step s = .refused .clearTooLong ∧ s.oe = true ∧
          ∃ n, decode w = .ok (.clear n) ∧ s.cfg.maxPixels < n.toNat)))

/-- R135: under the guard `IE = 0`, a hold makes no difference to a tick, and the host has no move that writes `IE`. -/
def Obligations.GuardIgnoresHolds : Prop :=
  ∀ (s : State) (ms : List Move), s.Inv → s.guard = true →
    s.ie = false ∧
    step { s with moves := .tick false true :: ms } = step { s with moves := .tick false false :: ms } ∧
    ∀ v, s.refused = false → step { s with moves := .writeIe v :: ms } = .fault .hostWritesIeUnderGuard

/-! ### Traces -/

/-- R121, R246 (the spec's own derivation): a command accepted from an idle, initialised block and held by nothing: the pad
is LOW in the accept tick, then carries exactly the pulses of the command's bytes, then rests LOW for the latch; the
block is busy for exactly the ticks of R246 and then idle again, the guard released and `IE` as it was (R136). -/
def Obligations.CommandTrace : Prop :=
  ∀ (s : State) (i : Instr), s.Inv → s.offered i →
    padTrace (1 + busyTicks s.cfg i) s =
      .low :: (expand (bytesTrace s.cfg (wireBytes s i)) ++ List.replicate (latchOf s.cfg i) .low) ∧
    (∀ k, 1 ≤ k → k ≤ busyTicks s.cfg i → ∃ t, runSteps k s = some t ∧ t.busy = true) ∧
    ∃ t, runSteps (1 + busyTicks s.cfg i) s = some t ∧ t.busy = false ∧ t.dout = false ∧ t.oe = true ∧
      t.guard = false ∧ t.ie = s.ie ∧ t.buf = s.buf ∧ t.borrowed = 0 ∧ t.timingFault = s.timingFault ∧ t.quiet

/-- R135, R141 (b): whatever the preemptor does, the pulses of a guarded frame have exactly the profile's shape: with any
sequence of holds the pad of a `SEND_STREAM` or `CLEAR` carries the same pulses from the first to the last. -/
def Obligations.GuardedPulsesIgnoreHolds : Prop :=
  ∀ (s : State) (i : Instr) (holds : List Bool), s.Inv → s.offered i →
    ((∃ len, i = .sendStream len) ∨ ∃ n, i = .clear n) →
    holds.length = 1 + 8 * s.cfg.p * (wireBytes s i).length →
      padTrace holds.length { s with moves := holds.map (fun h => .tick false h) } =
        .low :: expand (bytesTrace s.cfg (wireBytes s i))

/-- R56, R57, R51: from its accept tick to its end a `SEND_STREAM len` reads the bytes `0 .. len - 1` of `BUF`, each once and
in that order, one in the tick before the first pulse of each byte; every other command reads none. -/
def Obligations.StreamReadsEachByteOnce : Prop :=
  ∀ (s : State) (i : Instr), s.Inv → s.offered i →
    (∀ len, i = .sendStream len →
      (List.range (1 + busyTicks s.cfg i)).filterMap
          (fun k => (runSteps k s).bind (fun t => (t.bufAddr false false).map (fun a => (k, a.toNat)))) =
        (List.range len.toNat).map (fun j => (8 * s.cfg.p * j, j))) ∧
    ((∀ len, i ≠ .sendStream len) → ∀ k, k ≤ busyTicks s.cfg i →
      ∃ t, runSteps k s = some t ∧ t.bufAddr false false = none)

/-- R138, R174: the empty frame: no read of `BUF`, no pulse, the guard not taken and `IE` not touched, the phase `LATCHED`
for exactly the latch period, then `IDLE`. -/
def Obligations.EmptyFrameOnlyLatches : Prop :=
  ∀ (s : State) (i : Instr), s.Inv → s.offered i → i = .sendStream 0 ∨ i = .clear 0 →
    s.bufAddr false false = none ∧
    (∀ k, 1 ≤ k → k ≤ latchOf s.cfg i →
      ∃ t, runSteps k s = some t ∧ t.ph = .latched ∧ t.dout = false ∧ t.guard = false ∧ t.ie = s.ie ∧
        t.savedIe = s.savedIe ∧ t.bufAddr false false = none) ∧
    ∃ t, runSteps (1 + latchOf s.cfg i) s = some t ∧ t.ph = .idle ∧ t.dout = false ∧ t.ie = s.ie ∧
      t.savedIe = s.savedIe

/-- R173 (the spec's own derivation): `CLEAR n` and a `SEND_STREAM` of `3 * n` bytes over a buffer of zeros are the same on
the pad, tick for tick, for ever, whatever the two latch parameters are; and with equal ones they are busy equally long. -/
def Obligations.ClearEqualsZeroStream : Prop :=
  ∀ (s : State) (n len : Count), s.Inv → s.offered (.clear n) →
    len.toNat = 3 * n.toNat → (∀ i, i < len.toNat → s.buf.get i = 0) →
      (∀ k, padTrace k s = padTrace k { s with offer := some (encode (.sendStream len)) }) ∧
      (s.cfg.latchTicksClear = s.cfg.latchTicks →
        busyTicks s.cfg (.clear n) = busyTicks s.cfg (.sendStream len))

/-! ### The receiver-side reading (spec/30_encoding.md part C) -/

/-- R97, R99, R10 with R5, R6: of a well-formed configuration, the HIGH time of each bit reads as that bit, both LOW holds of
a byte list read as going on, both latch periods and every LOW that lasts at least 281 microseconds read as a latch, and no
LOW is both. -/
def Obligations.ProfileReadsBack : Prop :=
  ∀ c : Config, c.WellFormed →
    bitOf c c.h0 = some false ∧ bitOf c c.h1 = some true ∧
    lowClass c (c.p - c.h0) = .goesOn ∧ lowClass c (c.p - c.h1) = .goesOn ∧
    lowClass c (c.p - c.h0 + 1) = .goesOn ∧
    lowClass c c.latchTicks = .latchLow ∧ lowClass c c.latchTicksClear = .latchLow ∧
    (∀ l k, 281 * c.fClk ≤ k * 1000000 → lowClass c (l + k) = .latchLow) ∧
    ∀ l, ¬ (l ≤ c.lowMax ∧ 281 * c.fClk ≤ l * 1000000)

/-- R98, R101: a trace with an undriven segment is `Indeterminate`; and after an optional idle LOW and any pulses, so at any
place in a trace, so is a last HIGH without a LOW (cut inside a pulse), a bit period that is too short, a HIGH that is no
bit, and a LOW that is neither a pause nor a latch. -/
def Obligations.IndeterminateTraces : Prop :=
  ∀ (c : Config) (idle ps t : Trace) (pulses : List (Nat × Nat)) (h l : Nat),
    ((∃ g ∈ t, g.level = .z) → readTrace c t = none) ∧
    ((idle = [] ∨ ∃ k, idle = [⟨.low, k⟩]) →
      ps = pulses.flatMap (fun x => [⟨.high, x.1⟩, ⟨.low, x.2⟩]) →
        readTrace c (idle ++ ps ++ [⟨.high, h⟩]) = none ∧
        ((h + l) * 1000000000 < 1150 * c.fClk → readTrace c (idle ++ ps ++ ⟨.high, h⟩ :: ⟨.low, l⟩ :: t) = none) ∧
        (500 * c.fClk < h * 1000000000 → h * 1000000000 < 625 * c.fClk →
          readTrace c (idle ++ ps ++ ⟨.high, h⟩ :: ⟨.low, l⟩ :: t) = none) ∧
        (c.lowMax < l → l * 1000000 < 281 * c.fClk →
          readTrace c (idle ++ ps ++ ⟨.high, h⟩ :: ⟨.low, l⟩ :: t) = none))

/-- R102 (the spec's own derivation), for every latch that lasts at least 281 microseconds, so for that of `SEND_STREAM` and
for that of `CLEAR` (R6): the trace of any byte list and the latch after it reads back as the bits that were sent, most
significant first, then the latch; so it does after any idle LOW. -/
def Obligations.ReadingRoundTrip : Prop :=
  ∀ (c : Config) (bs : List Byte) (k : Nat), c.WellFormed → 281 * c.fClk ≤ k * 1000000 →
    readTrace c (normalise (bytesTrace c bs ++ latchTrace k)) = some (eventsOf bs) ∧
    ∀ j, readTrace c (normalise (⟨.low, j⟩ :: bytesTrace c bs ++ latchTrace k)) = some (eventsOf bs)

/-- R100: the events of a latched list of pixels group back into one frame of exactly those pixels, whatever the wire
order. -/
def Obligations.PixelsReadBack : Prop :=
  ∀ (o : WireOrder) (xs : List Pixel), xs ≠ [] →
    ∃ bits, framesOf (eventsOf (xs.flatMap (fun x => (wire3 o x).toList))) = ⟨[bits], []⟩ ∧
      readFrame o bits = ⟨xs, [], []⟩

/-- The end-to-end claim (R54, R102, R121): a buffer that holds the wire bytes of a list of pixels, sent by
`SEND_STREAM`, reads back on the wire as one latched frame of exactly those pixels, the first pixel first. -/
def Obligations.StreamShowsPixels : Prop :=
  ∀ (s : State) (len : Count) (xs : List Pixel), s.Inv → s.offered (.sendStream len) → xs ≠ [] →
    len.toNat = 3 * xs.length →
    bufBytes s.buf len.toNat = xs.flatMap (fun x => (wire3 s.cfg.wireOrder x).toList) →
      ∃ es bits, readTrace s.cfg (wireTrace (1 + busyTicks s.cfg (.sendStream len)) s) = some es ∧
        framesOf es = ⟨[bits], []⟩ ∧ readFrame s.cfg.wireOrder bits = ⟨xs, [], []⟩

/-- R248 (the spec's own derivation): a well-formed profile needs a clock of at least 2 MHz, and no profile at 2 MHz is
smaller than `(1, 2, 3)`, which is one: that of `EX2` (R249). That `EX2` is well formed as an instance rests also on its
`SUPPORTED_F` and on its `MAX_PIXELS`, which are the model's choice (notes/assumptions/2.md, 20.md). -/
def Obligations.SlowestClock : Prop :=
  (∀ c : Config, c.WellFormed → 2000000 ≤ c.fClk ∧ 1 ≤ c.h0 ∧ 2 ≤ c.h1 ∧ 3 ≤ c.p) ∧
  Config.ex2.WellFormed ∧ Config.ex2.fClk = 2000000 ∧ Config.ex2.h0 = 1 ∧ Config.ex2.h1 = 2 ∧ Config.ex2.p = 3
end

