-- ==== Sys2Proof/Laws/Memory.lean ====
section
/-! SUPPORT. `BUF`: a write is read back, leaves every other byte alone, and keeps the canonical form. -/

namespace Sys2Proof.Machine

theorem Memory.wfFrom_cons {lo a : Nat} {v : Byte} {m : Memory} :
    Memory.wfFrom lo ((a, v) :: m) = true ↔
      lo ≤ a ∧ a < bufSize ∧ v ≠ bufDefault ∧ Memory.wfFrom (a + 1) m = true := by
  simp [Memory.wfFrom, and_assoc]

theorem Memory.wfFrom_mono {lo lo' : Nat} {m : Memory} (h : Memory.wfFrom lo m = true) (hl : lo' ≤ lo) :
    Memory.wfFrom lo' m = true := by
  cases m with
  | nil => rfl
  | cons c m =>
    obtain ⟨h1, h2, h3, h4⟩ := Memory.wfFrom_cons.1 h
    exact Memory.wfFrom_cons.2 ⟨hl.trans h1, h2, h3, h4⟩

theorem Memory.get_below {lo i : Nat} {m : Memory} (h : Memory.wfFrom lo m = true) (hi : i < lo) :
    m.get i = bufDefault := by
  induction m generalizing lo with
  | nil => rfl
  | cons c m ih =>
    obtain ⟨h1, -, -, h4⟩ := Memory.wfFrom_cons.1 h
    have hne : i ≠ c.1 := by omega
    simp only [Memory.get, hne, if_false]
    exact ih h4 (by omega)

theorem Memory.get_erase_same {lo : Nat} {m : Memory} (h : Memory.wfFrom lo m = true) (i : Nat) :
    (m.erase i).get i = bufDefault := by
  induction m generalizing lo with
  | nil => rfl
  | cons c m ih =>
    obtain ⟨-, -, -, h4⟩ := Memory.wfFrom_cons.1 h
    by_cases hi : i = c.1
    · simp only [Memory.erase, hi, if_true]
      exact Memory.get_below h4 (by omega)
    · simp only [Memory.erase, hi, if_false, Memory.get]
      exact ih h4

theorem Memory.get_erase_other (m : Memory) {i j : Nat} (hj : j ≠ i) : (m.erase i).get j = m.get j := by
  induction m with
  | nil => rfl
  | cons c m ih =>
    by_cases hi : i = c.1
    · have : j ≠ c.1 := by omega
      simp [Memory.erase, Memory.get, hi, this]
    · simp [Memory.erase, Memory.get, hi, ih]

theorem Memory.get_insert (m : Memory) (i j : Nat) (b : Byte) :
    (m.insert i b).get j = if j = i then b else m.get j := by
  induction m with
  | nil => rfl
  | cons c m ih =>
    simp only [Memory.insert]
    split
    · rfl
    · split
      · rename_i h1 h2
        subst h2
        simp only [Memory.get]
        split <;> simp_all
      · simp only [Memory.get, ih]
        split <;> split <;> simp_all

theorem Memory.wfFrom_insert {lo i : Nat} {m : Memory} {b : Byte} (h : Memory.wfFrom lo m = true) (hl : lo ≤ i)
    (hi : i < bufSize) (hb : b ≠ bufDefault) : Memory.wfFrom lo (m.insert i b) = true := by
  induction m generalizing lo with
  | nil => exact Memory.wfFrom_cons.2 ⟨hl, hi, hb, rfl⟩
  | cons c m ih =>
    obtain ⟨h1, h2, h3, h4⟩ := Memory.wfFrom_cons.1 h
    simp only [Memory.insert]
    split
    · exact Memory.wfFrom_cons.2 ⟨hl, hi, hb, Memory.wfFrom_cons.2 ⟨by omega, h2, h3, h4⟩⟩
    · split
      · exact Memory.wfFrom_cons.2 ⟨hl, hi, hb, Memory.wfFrom_mono h4 (by omega)⟩
      · exact Memory.wfFrom_cons.2 ⟨h1, h2, h3, ih h4 (by omega)⟩

theorem Memory.wfFrom_erase {lo : Nat} {m : Memory} (h : Memory.wfFrom lo m = true) (i : Nat) :
    Memory.wfFrom lo (m.erase i) = true := by
  induction m generalizing lo with
  | nil => rfl
  | cons c m ih =>
    obtain ⟨h1, h2, h3, h4⟩ := Memory.wfFrom_cons.1 h
    simp only [Memory.erase]
    split
    · exact Memory.wfFrom_mono h4 (by omega)
    · exact Memory.wfFrom_cons.2 ⟨h1, h2, h3, ih h4⟩

/-- A write is read back at its index and leaves every other byte alone. -/
theorem Memory.get_set {m : Memory} (h : m.wf = true) (i j : Nat) (b : Byte) :
    (m.set i b).get j = if j = i then b else m.get j := by
  unfold Memory.set
  split
  · rename_i hb
    subst hb
    by_cases hj : j = i
    · subst hj
      rw [if_pos rfl]
      exact Memory.get_erase_same h j
    · rw [Memory.get_erase_other m hj, if_neg hj]
  · exact Memory.get_insert m i j b

/-- A write at an index of `BUF` keeps the canonical form. -/
theorem Memory.wf_set {m : Memory} (h : m.wf = true) {i : Nat} (hi : i < bufSize) (b : Byte) :
    (m.set i b).wf = true := by
  unfold Memory.set
  split
  · exact Memory.wfFrom_erase h i
  · exact Memory.wfFrom_insert h (Nat.zero_le i) hi ‹_›

/-- `bufWrite` keeps the canonical form. -/
theorem bufWrite_wf {m m' : Memory} {i : Count} {b : Byte} (h : m.wf = true) (hw : bufWrite m i b = some m') :
    m'.wf = true := by
  unfold bufWrite at hw
  split at hw
  · cases hw
    exact Memory.wf_set h ‹_› b
  · cases hw

/-- What `bufRead` answers after `bufWrite`. -/
theorem bufRead_bufWrite {m m' : Memory} {i : Count} {b : Byte} (h : m.wf = true) (hw : bufWrite m i b = some m')
    (j : Count) : bufRead m' j = if j = i then some b else bufRead m j := by
  unfold bufWrite at hw
  split at hw
  · rename_i hi
    cases hw
    unfold bufRead
    rw [Memory.get_set h]
    by_cases hj : j = i
    · simp [hj, hi]
    · have : j.toNat ≠ i.toNat := fun e => hj (BitVec.eq_of_toNat_eq e)
      simp [hj, this]
  · cases hw

/-- A byte of `BUF` below its size is there. -/
theorem bufRead_some (m : Memory) {i : Count} (hi : i.toNat < bufSize) : bufRead m i = some (m.get i.toNat) := by
  simp [bufRead, hi]

/-- Byte 0 is always there. -/
@[simp] theorem bufRead_zero (m : Memory) : bufRead m 0 = some (m.get 0) := bufRead_some m (by decide)

end Sys2Proof.Machine
end

