-- ==== Sys2Proof/Laws/State.lean ====
section
/-! SUPPORT. The fields of a state after each named update of Machine/Ops.lean and Machine/Tick.lean, one lemma per field
per update, so that no proof unfolds a record update. -/

namespace Sys2Proof.Machine

variable (s : State)

/-! ### `takeOffer` -/

@[simp] theorem State.takeOffer_cfg : s.takeOffer.cfg = s.cfg := rfl
@[simp] theorem State.takeOffer_ph : s.takeOffer.ph = s.ph := rfl
@[simp] theorem State.takeOffer_dout : s.takeOffer.dout = s.dout := rfl
@[simp] theorem State.takeOffer_oe : s.takeOffer.oe = s.oe := rfl
@[simp] theorem State.takeOffer_sr : s.takeOffer.sr = s.sr := rfl
@[simp] theorem State.takeOffer_srck : s.takeOffer.srck = s.srck := rfl
@[simp] theorem State.takeOffer_imm : s.takeOffer.imm = s.imm := rfl
@[simp] theorem State.takeOffer_idx : s.takeOffer.idx = s.idx := rfl
@[simp] theorem State.takeOffer_rem : s.takeOffer.rem = s.rem := rfl
@[simp] theorem State.takeOffer_bitn : s.takeOffer.bitn = s.bitn := rfl
@[simp] theorem State.takeOffer_tcnt : s.takeOffer.tcnt = s.tcnt := rfl
@[simp] theorem State.takeOffer_lcnt : s.takeOffer.lcnt = s.lcnt := rfl
@[simp] theorem State.takeOffer_bright : s.takeOffer.bright = s.bright := rfl
@[simp] theorem State.takeOffer_guard : s.takeOffer.guard = s.guard := rfl
@[simp] theorem State.takeOffer_doLatch : s.takeOffer.doLatch = s.doLatch := rfl
@[simp] theorem State.takeOffer_lsel : s.takeOffer.lsel = s.lsel := rfl
@[simp] theorem State.takeOffer_savedIe : s.takeOffer.savedIe = s.savedIe := rfl
@[simp] theorem State.takeOffer_ie : s.takeOffer.ie = s.ie := rfl
@[simp] theorem State.takeOffer_timingFault : s.takeOffer.timingFault = s.timingFault := rfl
@[simp] theorem State.takeOffer_refused : s.takeOffer.refused = s.refused := rfl
@[simp] theorem State.takeOffer_borrowed : s.takeOffer.borrowed = s.borrowed := rfl
@[simp] theorem State.takeOffer_buf : s.takeOffer.buf = s.buf := rfl
@[simp] theorem State.takeOffer_offer : s.takeOffer.offer = none := rfl
@[simp] theorem State.takeOffer_moves : s.takeOffer.moves = s.moves := rfl

/-! ### `loadImm` -/

@[simp] theorem State.loadImm_cfg (imm : Immediate) (rem : Count) : (s.loadImm imm rem).cfg = s.cfg := rfl
@[simp] theorem State.loadImm_ph (imm : Immediate) (rem : Count) : (s.loadImm imm rem).ph = s.ph := rfl
@[simp] theorem State.loadImm_dout (imm : Immediate) (rem : Count) : (s.loadImm imm rem).dout = s.dout := rfl
@[simp] theorem State.loadImm_oe (imm : Immediate) (rem : Count) : (s.loadImm imm rem).oe = s.oe := rfl
@[simp] theorem State.loadImm_sr (imm : Immediate) (rem : Count) : (s.loadImm imm rem).sr = s.sr := rfl
@[simp] theorem State.loadImm_srck (imm : Immediate) (rem : Count) : (s.loadImm imm rem).srck = .imm := rfl
@[simp] theorem State.loadImm_imm (imm : Immediate) (rem : Count) : (s.loadImm imm rem).imm = imm := rfl
@[simp] theorem State.loadImm_idx (imm : Immediate) (rem : Count) : (s.loadImm imm rem).idx = s.idx := rfl
@[simp] theorem State.loadImm_rem (imm : Immediate) (rem : Count) : (s.loadImm imm rem).rem = rem := rfl
@[simp] theorem State.loadImm_bitn (imm : Immediate) (rem : Count) : (s.loadImm imm rem).bitn = s.bitn := rfl
@[simp] theorem State.loadImm_tcnt (imm : Immediate) (rem : Count) : (s.loadImm imm rem).tcnt = s.tcnt := rfl
@[simp] theorem State.loadImm_lcnt (imm : Immediate) (rem : Count) : (s.loadImm imm rem).lcnt = s.lcnt := rfl
@[simp] theorem State.loadImm_bright (imm : Immediate) (rem : Count) : (s.loadImm imm rem).bright = s.bright := rfl
@[simp] theorem State.loadImm_guard (imm : Immediate) (rem : Count) : (s.loadImm imm rem).guard = s.guard := rfl
@[simp] theorem State.loadImm_doLatch (imm : Immediate) (rem : Count) : (s.loadImm imm rem).doLatch = s.doLatch := rfl
@[simp] theorem State.loadImm_lsel (imm : Immediate) (rem : Count) : (s.loadImm imm rem).lsel = s.lsel := rfl
@[simp] theorem State.loadImm_savedIe (imm : Immediate) (rem : Count) : (s.loadImm imm rem).savedIe = s.savedIe := rfl
@[simp] theorem State.loadImm_ie (imm : Immediate) (rem : Count) : (s.loadImm imm rem).ie = s.ie := rfl
@[simp] theorem State.loadImm_timingFault (imm : Immediate) (rem : Count) : (s.loadImm imm rem).timingFault = s.timingFault := rfl
@[simp] theorem State.loadImm_refused (imm : Immediate) (rem : Count) : (s.loadImm imm rem).refused = s.refused := rfl
@[simp] theorem State.loadImm_borrowed (imm : Immediate) (rem : Count) : (s.loadImm imm rem).borrowed = s.borrowed := rfl
@[simp] theorem State.loadImm_buf (imm : Immediate) (rem : Count) : (s.loadImm imm rem).buf = s.buf := rfl
@[simp] theorem State.loadImm_offer (imm : Immediate) (rem : Count) : (s.loadImm imm rem).offer = s.offer := rfl
@[simp] theorem State.loadImm_moves (imm : Immediate) (rem : Count) : (s.loadImm imm rem).moves = s.moves := rfl

/-! ### `loadBuf` -/

@[simp] theorem State.loadBuf_cfg (len : Count) : (s.loadBuf len).cfg = s.cfg := rfl
@[simp] theorem State.loadBuf_ph (len : Count) : (s.loadBuf len).ph = s.ph := rfl
@[simp] theorem State.loadBuf_dout (len : Count) : (s.loadBuf len).dout = s.dout := rfl
@[simp] theorem State.loadBuf_oe (len : Count) : (s.loadBuf len).oe = s.oe := rfl
@[simp] theorem State.loadBuf_sr (len : Count) : (s.loadBuf len).sr = s.sr := rfl
@[simp] theorem State.loadBuf_srck (len : Count) : (s.loadBuf len).srck = .buf := rfl
@[simp] theorem State.loadBuf_imm (len : Count) : (s.loadBuf len).imm = s.imm := rfl
@[simp] theorem State.loadBuf_idx (len : Count) : (s.loadBuf len).idx = 1 := rfl
@[simp] theorem State.loadBuf_rem (len : Count) : (s.loadBuf len).rem = len - 1 := rfl
@[simp] theorem State.loadBuf_bitn (len : Count) : (s.loadBuf len).bitn = s.bitn := rfl
@[simp] theorem State.loadBuf_tcnt (len : Count) : (s.loadBuf len).tcnt = s.tcnt := rfl
@[simp] theorem State.loadBuf_lcnt (len : Count) : (s.loadBuf len).lcnt = s.lcnt := rfl
@[simp] theorem State.loadBuf_bright (len : Count) : (s.loadBuf len).bright = s.bright := rfl
@[simp] theorem State.loadBuf_guard (len : Count) : (s.loadBuf len).guard = s.guard := rfl
@[simp] theorem State.loadBuf_doLatch (len : Count) : (s.loadBuf len).doLatch = s.doLatch := rfl
@[simp] theorem State.loadBuf_lsel (len : Count) : (s.loadBuf len).lsel = s.lsel := rfl
@[simp] theorem State.loadBuf_savedIe (len : Count) : (s.loadBuf len).savedIe = s.savedIe := rfl
@[simp] theorem State.loadBuf_ie (len : Count) : (s.loadBuf len).ie = s.ie := rfl
@[simp] theorem State.loadBuf_timingFault (len : Count) : (s.loadBuf len).timingFault = s.timingFault := rfl
@[simp] theorem State.loadBuf_refused (len : Count) : (s.loadBuf len).refused = s.refused := rfl
@[simp] theorem State.loadBuf_borrowed (len : Count) : (s.loadBuf len).borrowed = len := rfl
@[simp] theorem State.loadBuf_buf (len : Count) : (s.loadBuf len).buf = s.buf := rfl
@[simp] theorem State.loadBuf_offer (len : Count) : (s.loadBuf len).offer = s.offer := rfl
@[simp] theorem State.loadBuf_moves (len : Count) : (s.loadBuf len).moves = s.moves := rfl

/-! ### `loadZero` -/

@[simp] theorem State.loadZero_cfg (rem : Count) : (s.loadZero rem).cfg = s.cfg := rfl
@[simp] theorem State.loadZero_ph (rem : Count) : (s.loadZero rem).ph = s.ph := rfl
@[simp] theorem State.loadZero_dout (rem : Count) : (s.loadZero rem).dout = s.dout := rfl
@[simp] theorem State.loadZero_oe (rem : Count) : (s.loadZero rem).oe = s.oe := rfl
@[simp] theorem State.loadZero_sr (rem : Count) : (s.loadZero rem).sr = s.sr := rfl
@[simp] theorem State.loadZero_srck (rem : Count) : (s.loadZero rem).srck = .zero := rfl
@[simp] theorem State.loadZero_imm (rem : Count) : (s.loadZero rem).imm = s.imm := rfl
@[simp] theorem State.loadZero_idx (rem : Count) : (s.loadZero rem).idx = s.idx := rfl
@[simp] theorem State.loadZero_rem (rem : Count) : (s.loadZero rem).rem = rem := rfl
@[simp] theorem State.loadZero_bitn (rem : Count) : (s.loadZero rem).bitn = s.bitn := rfl
@[simp] theorem State.loadZero_tcnt (rem : Count) : (s.loadZero rem).tcnt = s.tcnt := rfl
@[simp] theorem State.loadZero_lcnt (rem : Count) : (s.loadZero rem).lcnt = s.lcnt := rfl
@[simp] theorem State.loadZero_bright (rem : Count) : (s.loadZero rem).bright = s.bright := rfl
@[simp] theorem State.loadZero_guard (rem : Count) : (s.loadZero rem).guard = s.guard := rfl
@[simp] theorem State.loadZero_doLatch (rem : Count) : (s.loadZero rem).doLatch = s.doLatch := rfl
@[simp] theorem State.loadZero_lsel (rem : Count) : (s.loadZero rem).lsel = s.lsel := rfl
@[simp] theorem State.loadZero_savedIe (rem : Count) : (s.loadZero rem).savedIe = s.savedIe := rfl
@[simp] theorem State.loadZero_ie (rem : Count) : (s.loadZero rem).ie = s.ie := rfl
@[simp] theorem State.loadZero_timingFault (rem : Count) : (s.loadZero rem).timingFault = s.timingFault := rfl
@[simp] theorem State.loadZero_refused (rem : Count) : (s.loadZero rem).refused = s.refused := rfl
@[simp] theorem State.loadZero_borrowed (rem : Count) : (s.loadZero rem).borrowed = s.borrowed := rfl
@[simp] theorem State.loadZero_buf (rem : Count) : (s.loadZero rem).buf = s.buf := rfl
@[simp] theorem State.loadZero_offer (rem : Count) : (s.loadZero rem).offer = s.offer := rfl
@[simp] theorem State.loadZero_moves (rem : Count) : (s.loadZero rem).moves = s.moves := rfl

/-! ### `unguarded` -/

@[simp] theorem State.unguarded_cfg (dl ls : Bool) : (s.unguarded dl ls).cfg = s.cfg := rfl
@[simp] theorem State.unguarded_ph (dl ls : Bool) : (s.unguarded dl ls).ph = s.ph := rfl
@[simp] theorem State.unguarded_dout (dl ls : Bool) : (s.unguarded dl ls).dout = s.dout := rfl
@[simp] theorem State.unguarded_oe (dl ls : Bool) : (s.unguarded dl ls).oe = s.oe := rfl
@[simp] theorem State.unguarded_sr (dl ls : Bool) : (s.unguarded dl ls).sr = s.sr := rfl
@[simp] theorem State.unguarded_srck (dl ls : Bool) : (s.unguarded dl ls).srck = s.srck := rfl
@[simp] theorem State.unguarded_imm (dl ls : Bool) : (s.unguarded dl ls).imm = s.imm := rfl
@[simp] theorem State.unguarded_idx (dl ls : Bool) : (s.unguarded dl ls).idx = s.idx := rfl
@[simp] theorem State.unguarded_rem (dl ls : Bool) : (s.unguarded dl ls).rem = s.rem := rfl
@[simp] theorem State.unguarded_bitn (dl ls : Bool) : (s.unguarded dl ls).bitn = s.bitn := rfl
@[simp] theorem State.unguarded_tcnt (dl ls : Bool) : (s.unguarded dl ls).tcnt = s.tcnt := rfl
@[simp] theorem State.unguarded_lcnt (dl ls : Bool) : (s.unguarded dl ls).lcnt = s.lcnt := rfl
@[simp] theorem State.unguarded_bright (dl ls : Bool) : (s.unguarded dl ls).bright = s.bright := rfl
@[simp] theorem State.unguarded_guard (dl ls : Bool) : (s.unguarded dl ls).guard = false := rfl
@[simp] theorem State.unguarded_doLatch (dl ls : Bool) : (s.unguarded dl ls).doLatch = dl := rfl
@[simp] theorem State.unguarded_lsel (dl ls : Bool) : (s.unguarded dl ls).lsel = ls := rfl
@[simp] theorem State.unguarded_savedIe (dl ls : Bool) : (s.unguarded dl ls).savedIe = s.savedIe := rfl
@[simp] theorem State.unguarded_ie (dl ls : Bool) : (s.unguarded dl ls).ie = s.ie := rfl
@[simp] theorem State.unguarded_timingFault (dl ls : Bool) : (s.unguarded dl ls).timingFault = s.timingFault := rfl
@[simp] theorem State.unguarded_refused (dl ls : Bool) : (s.unguarded dl ls).refused = s.refused := rfl
@[simp] theorem State.unguarded_borrowed (dl ls : Bool) : (s.unguarded dl ls).borrowed = s.borrowed := rfl
@[simp] theorem State.unguarded_buf (dl ls : Bool) : (s.unguarded dl ls).buf = s.buf := rfl
@[simp] theorem State.unguarded_offer (dl ls : Bool) : (s.unguarded dl ls).offer = s.offer := rfl
@[simp] theorem State.unguarded_moves (dl ls : Bool) : (s.unguarded dl ls).moves = s.moves := rfl

/-! ### `takeGuard` -/

@[simp] theorem State.takeGuard_cfg (ls : Bool) : (s.takeGuard ls).cfg = s.cfg := rfl
@[simp] theorem State.takeGuard_ph (ls : Bool) : (s.takeGuard ls).ph = s.ph := rfl
@[simp] theorem State.takeGuard_dout (ls : Bool) : (s.takeGuard ls).dout = s.dout := rfl
@[simp] theorem State.takeGuard_oe (ls : Bool) : (s.takeGuard ls).oe = s.oe := rfl
@[simp] theorem State.takeGuard_sr (ls : Bool) : (s.takeGuard ls).sr = s.sr := rfl
@[simp] theorem State.takeGuard_srck (ls : Bool) : (s.takeGuard ls).srck = s.srck := rfl
@[simp] theorem State.takeGuard_imm (ls : Bool) : (s.takeGuard ls).imm = s.imm := rfl
@[simp] theorem State.takeGuard_idx (ls : Bool) : (s.takeGuard ls).idx = s.idx := rfl
@[simp] theorem State.takeGuard_rem (ls : Bool) : (s.takeGuard ls).rem = s.rem := rfl
@[simp] theorem State.takeGuard_bitn (ls : Bool) : (s.takeGuard ls).bitn = s.bitn := rfl
@[simp] theorem State.takeGuard_tcnt (ls : Bool) : (s.takeGuard ls).tcnt = s.tcnt := rfl
@[simp] theorem State.takeGuard_lcnt (ls : Bool) : (s.takeGuard ls).lcnt = s.lcnt := rfl
@[simp] theorem State.takeGuard_bright (ls : Bool) : (s.takeGuard ls).bright = s.bright := rfl
@[simp] theorem State.takeGuard_guard (ls : Bool) : (s.takeGuard ls).guard = true := rfl
@[simp] theorem State.takeGuard_doLatch (ls : Bool) : (s.takeGuard ls).doLatch = true := rfl
@[simp] theorem State.takeGuard_lsel (ls : Bool) : (s.takeGuard ls).lsel = ls := rfl
@[simp] theorem State.takeGuard_savedIe (ls : Bool) : (s.takeGuard ls).savedIe = s.ie := rfl
@[simp] theorem State.takeGuard_ie (ls : Bool) : (s.takeGuard ls).ie = false := rfl
@[simp] theorem State.takeGuard_timingFault (ls : Bool) : (s.takeGuard ls).timingFault = s.timingFault := rfl
@[simp] theorem State.takeGuard_refused (ls : Bool) : (s.takeGuard ls).refused = s.refused := rfl
@[simp] theorem State.takeGuard_borrowed (ls : Bool) : (s.takeGuard ls).borrowed = s.borrowed := rfl
@[simp] theorem State.takeGuard_buf (ls : Bool) : (s.takeGuard ls).buf = s.buf := rfl
@[simp] theorem State.takeGuard_offer (ls : Bool) : (s.takeGuard ls).offer = s.offer := rfl
@[simp] theorem State.takeGuard_moves (ls : Bool) : (s.takeGuard ls).moves = s.moves := rfl

/-! ### `releaseGuard` -/

@[simp] theorem State.releaseGuard_cfg : s.releaseGuard.cfg = s.cfg := rfl
@[simp] theorem State.releaseGuard_ph : s.releaseGuard.ph = s.ph := rfl
@[simp] theorem State.releaseGuard_dout : s.releaseGuard.dout = s.dout := rfl
@[simp] theorem State.releaseGuard_oe : s.releaseGuard.oe = s.oe := rfl
@[simp] theorem State.releaseGuard_sr : s.releaseGuard.sr = s.sr := rfl
@[simp] theorem State.releaseGuard_srck : s.releaseGuard.srck = s.srck := rfl
@[simp] theorem State.releaseGuard_imm : s.releaseGuard.imm = s.imm := rfl
@[simp] theorem State.releaseGuard_idx : s.releaseGuard.idx = s.idx := rfl
@[simp] theorem State.releaseGuard_rem : s.releaseGuard.rem = s.rem := rfl
@[simp] theorem State.releaseGuard_bitn : s.releaseGuard.bitn = s.bitn := rfl
@[simp] theorem State.releaseGuard_tcnt : s.releaseGuard.tcnt = s.tcnt := rfl
@[simp] theorem State.releaseGuard_lcnt : s.releaseGuard.lcnt = s.lcnt := rfl
@[simp] theorem State.releaseGuard_bright : s.releaseGuard.bright = s.bright := rfl
@[simp] theorem State.releaseGuard_guard : s.releaseGuard.guard = false := rfl
@[simp] theorem State.releaseGuard_doLatch : s.releaseGuard.doLatch = s.doLatch := rfl
@[simp] theorem State.releaseGuard_lsel : s.releaseGuard.lsel = s.lsel := rfl
@[simp] theorem State.releaseGuard_savedIe : s.releaseGuard.savedIe = s.savedIe := rfl
@[simp] theorem State.releaseGuard_ie : s.releaseGuard.ie = (if s.guard then s.savedIe else s.ie) := rfl
@[simp] theorem State.releaseGuard_timingFault : s.releaseGuard.timingFault = s.timingFault := rfl
@[simp] theorem State.releaseGuard_refused : s.releaseGuard.refused = s.refused := rfl
@[simp] theorem State.releaseGuard_borrowed : s.releaseGuard.borrowed = s.borrowed := rfl
@[simp] theorem State.releaseGuard_buf : s.releaseGuard.buf = s.buf := rfl
@[simp] theorem State.releaseGuard_offer : s.releaseGuard.offer = s.offer := rfl
@[simp] theorem State.releaseGuard_moves : s.releaseGuard.moves = s.moves := rfl

/-! ### `startTx` -/

@[simp] theorem State.startTx_cfg (b : Byte) : (s.startTx b).cfg = s.cfg := rfl
@[simp] theorem State.startTx_ph (b : Byte) : (s.startTx b).ph = .transmitting := rfl
@[simp] theorem State.startTx_dout (b : Byte) : (s.startTx b).dout = true := rfl
@[simp] theorem State.startTx_oe (b : Byte) : (s.startTx b).oe = s.oe := rfl
@[simp] theorem State.startTx_sr (b : Byte) : (s.startTx b).sr = b := rfl
@[simp] theorem State.startTx_srck (b : Byte) : (s.startTx b).srck = s.srck := rfl
@[simp] theorem State.startTx_imm (b : Byte) : (s.startTx b).imm = s.imm := rfl
@[simp] theorem State.startTx_idx (b : Byte) : (s.startTx b).idx = s.idx := rfl
@[simp] theorem State.startTx_rem (b : Byte) : (s.startTx b).rem = s.rem := rfl
@[simp] theorem State.startTx_bitn (b : Byte) : (s.startTx b).bitn = 8 := rfl
@[simp] theorem State.startTx_tcnt (b : Byte) : (s.startTx b).tcnt = 0 := rfl
@[simp] theorem State.startTx_lcnt (b : Byte) : (s.startTx b).lcnt = s.lcnt := rfl
@[simp] theorem State.startTx_bright (b : Byte) : (s.startTx b).bright = s.bright := rfl
@[simp] theorem State.startTx_guard (b : Byte) : (s.startTx b).guard = s.guard := rfl
@[simp] theorem State.startTx_doLatch (b : Byte) : (s.startTx b).doLatch = s.doLatch := rfl
@[simp] theorem State.startTx_lsel (b : Byte) : (s.startTx b).lsel = s.lsel := rfl
@[simp] theorem State.startTx_savedIe (b : Byte) : (s.startTx b).savedIe = s.savedIe := rfl
@[simp] theorem State.startTx_ie (b : Byte) : (s.startTx b).ie = s.ie := rfl
@[simp] theorem State.startTx_timingFault (b : Byte) : (s.startTx b).timingFault = s.timingFault := rfl
@[simp] theorem State.startTx_refused (b : Byte) : (s.startTx b).refused = s.refused := rfl
@[simp] theorem State.startTx_borrowed (b : Byte) : (s.startTx b).borrowed = s.borrowed := rfl
@[simp] theorem State.startTx_buf (b : Byte) : (s.startTx b).buf = s.buf := rfl
@[simp] theorem State.startTx_offer (b : Byte) : (s.startTx b).offer = s.offer := rfl
@[simp] theorem State.startTx_moves (b : Byte) : (s.startTx b).moves = s.moves := rfl

/-! ### `enterLatched` -/

@[simp] theorem State.enterLatched_cfg : s.enterLatched.cfg = s.cfg := rfl
@[simp] theorem State.enterLatched_ph : s.enterLatched.ph = .latched := rfl
@[simp] theorem State.enterLatched_dout : s.enterLatched.dout = s.dout := rfl
@[simp] theorem State.enterLatched_oe : s.enterLatched.oe = s.oe := rfl
@[simp] theorem State.enterLatched_sr : s.enterLatched.sr = s.sr := rfl
@[simp] theorem State.enterLatched_srck : s.enterLatched.srck = s.srck := rfl
@[simp] theorem State.enterLatched_imm : s.enterLatched.imm = s.imm := rfl
@[simp] theorem State.enterLatched_idx : s.enterLatched.idx = s.idx := rfl
@[simp] theorem State.enterLatched_rem : s.enterLatched.rem = s.rem := rfl
@[simp] theorem State.enterLatched_bitn : s.enterLatched.bitn = s.bitn := rfl
@[simp] theorem State.enterLatched_tcnt : s.enterLatched.tcnt = s.tcnt := rfl
@[simp] theorem State.enterLatched_lcnt : s.enterLatched.lcnt = 0 := rfl
@[simp] theorem State.enterLatched_bright : s.enterLatched.bright = s.bright := rfl
@[simp] theorem State.enterLatched_guard : s.enterLatched.guard = s.guard := rfl
@[simp] theorem State.enterLatched_doLatch : s.enterLatched.doLatch = s.doLatch := rfl
@[simp] theorem State.enterLatched_lsel : s.enterLatched.lsel = s.lsel := rfl
@[simp] theorem State.enterLatched_savedIe : s.enterLatched.savedIe = s.savedIe := rfl
@[simp] theorem State.enterLatched_ie : s.enterLatched.ie = s.ie := rfl
@[simp] theorem State.enterLatched_timingFault : s.enterLatched.timingFault = s.timingFault := rfl
@[simp] theorem State.enterLatched_refused : s.enterLatched.refused = s.refused := rfl
@[simp] theorem State.enterLatched_borrowed : s.enterLatched.borrowed = s.borrowed := rfl
@[simp] theorem State.enterLatched_buf : s.enterLatched.buf = s.buf := rfl
@[simp] theorem State.enterLatched_offer : s.enterLatched.offer = s.offer := rfl
@[simp] theorem State.enterLatched_moves : s.enterLatched.moves = s.moves := rfl

/-! ### `enterIdle` -/

@[simp] theorem State.enterIdle_cfg : s.enterIdle.cfg = s.cfg := rfl
@[simp] theorem State.enterIdle_ph : s.enterIdle.ph = .idle := rfl
@[simp] theorem State.enterIdle_dout : s.enterIdle.dout = s.dout := rfl
@[simp] theorem State.enterIdle_oe : s.enterIdle.oe = s.oe := rfl
@[simp] theorem State.enterIdle_sr : s.enterIdle.sr = s.sr := rfl
@[simp] theorem State.enterIdle_srck : s.enterIdle.srck = s.srck := rfl
@[simp] theorem State.enterIdle_imm : s.enterIdle.imm = s.imm := rfl
@[simp] theorem State.enterIdle_idx : s.enterIdle.idx = s.idx := rfl
@[simp] theorem State.enterIdle_rem : s.enterIdle.rem = s.rem := rfl
@[simp] theorem State.enterIdle_bitn : s.enterIdle.bitn = s.bitn := rfl
@[simp] theorem State.enterIdle_tcnt : s.enterIdle.tcnt = s.tcnt := rfl
@[simp] theorem State.enterIdle_lcnt : s.enterIdle.lcnt = s.lcnt := rfl
@[simp] theorem State.enterIdle_bright : s.enterIdle.bright = s.bright := rfl
@[simp] theorem State.enterIdle_guard : s.enterIdle.guard = s.guard := rfl
@[simp] theorem State.enterIdle_doLatch : s.enterIdle.doLatch = s.doLatch := rfl
@[simp] theorem State.enterIdle_lsel : s.enterIdle.lsel = s.lsel := rfl
@[simp] theorem State.enterIdle_savedIe : s.enterIdle.savedIe = s.savedIe := rfl
@[simp] theorem State.enterIdle_ie : s.enterIdle.ie = s.ie := rfl
@[simp] theorem State.enterIdle_timingFault : s.enterIdle.timingFault = s.timingFault := rfl
@[simp] theorem State.enterIdle_refused : s.enterIdle.refused = s.refused := rfl
@[simp] theorem State.enterIdle_borrowed : s.enterIdle.borrowed = 0 := rfl
@[simp] theorem State.enterIdle_buf : s.enterIdle.buf = s.buf := rfl
@[simp] theorem State.enterIdle_offer : s.enterIdle.offer = s.offer := rfl
@[simp] theorem State.enterIdle_moves : s.enterIdle.moves = s.moves := rfl

/-! ### `nextBit` -/

@[simp] theorem State.nextBit_cfg : s.nextBit.cfg = s.cfg := rfl
@[simp] theorem State.nextBit_ph : s.nextBit.ph = s.ph := rfl
@[simp] theorem State.nextBit_dout : s.nextBit.dout = true := rfl
@[simp] theorem State.nextBit_oe : s.nextBit.oe = s.oe := rfl
@[simp] theorem State.nextBit_sr : s.nextBit.sr = s.sr <<< 1 := rfl
@[simp] theorem State.nextBit_srck : s.nextBit.srck = s.srck := rfl
@[simp] theorem State.nextBit_imm : s.nextBit.imm = s.imm := rfl
@[simp] theorem State.nextBit_idx : s.nextBit.idx = s.idx := rfl
@[simp] theorem State.nextBit_rem : s.nextBit.rem = s.rem := rfl
@[simp] theorem State.nextBit_bitn : s.nextBit.bitn = s.bitn - 1 := rfl
@[simp] theorem State.nextBit_tcnt : s.nextBit.tcnt = s.tcnt := rfl
@[simp] theorem State.nextBit_lcnt : s.nextBit.lcnt = s.lcnt := rfl
@[simp] theorem State.nextBit_bright : s.nextBit.bright = s.bright := rfl
@[simp] theorem State.nextBit_guard : s.nextBit.guard = s.guard := rfl
@[simp] theorem State.nextBit_doLatch : s.nextBit.doLatch = s.doLatch := rfl
@[simp] theorem State.nextBit_lsel : s.nextBit.lsel = s.lsel := rfl
@[simp] theorem State.nextBit_savedIe : s.nextBit.savedIe = s.savedIe := rfl
@[simp] theorem State.nextBit_ie : s.nextBit.ie = s.ie := rfl
@[simp] theorem State.nextBit_timingFault : s.nextBit.timingFault = s.timingFault := rfl
@[simp] theorem State.nextBit_refused : s.nextBit.refused = s.refused := rfl
@[simp] theorem State.nextBit_borrowed : s.nextBit.borrowed = s.borrowed := rfl
@[simp] theorem State.nextBit_buf : s.nextBit.buf = s.buf := rfl
@[simp] theorem State.nextBit_offer : s.nextBit.offer = s.offer := rfl
@[simp] theorem State.nextBit_moves : s.nextBit.moves = s.moves := rfl

/-! ### `loadByte` -/

@[simp] theorem State.loadByte_cfg (b : Byte) : (s.loadByte b).cfg = s.cfg := rfl
@[simp] theorem State.loadByte_ph (b : Byte) : (s.loadByte b).ph = s.ph := rfl
@[simp] theorem State.loadByte_dout (b : Byte) : (s.loadByte b).dout = true := rfl
@[simp] theorem State.loadByte_oe (b : Byte) : (s.loadByte b).oe = s.oe := rfl
@[simp] theorem State.loadByte_sr (b : Byte) : (s.loadByte b).sr = b := rfl
@[simp] theorem State.loadByte_srck (b : Byte) : (s.loadByte b).srck = s.srck := rfl
@[simp] theorem State.loadByte_imm (b : Byte) : (s.loadByte b).imm = s.imm := rfl
@[simp] theorem State.loadByte_idx (b : Byte) : (s.loadByte b).idx = s.idx := rfl
@[simp] theorem State.loadByte_rem (b : Byte) : (s.loadByte b).rem = s.rem := rfl
@[simp] theorem State.loadByte_bitn (b : Byte) : (s.loadByte b).bitn = 8 := rfl
@[simp] theorem State.loadByte_tcnt (b : Byte) : (s.loadByte b).tcnt = s.tcnt := rfl
@[simp] theorem State.loadByte_lcnt (b : Byte) : (s.loadByte b).lcnt = s.lcnt := rfl
@[simp] theorem State.loadByte_bright (b : Byte) : (s.loadByte b).bright = s.bright := rfl
@[simp] theorem State.loadByte_guard (b : Byte) : (s.loadByte b).guard = s.guard := rfl
@[simp] theorem State.loadByte_doLatch (b : Byte) : (s.loadByte b).doLatch = s.doLatch := rfl
@[simp] theorem State.loadByte_lsel (b : Byte) : (s.loadByte b).lsel = s.lsel := rfl
@[simp] theorem State.loadByte_savedIe (b : Byte) : (s.loadByte b).savedIe = s.savedIe := rfl
@[simp] theorem State.loadByte_ie (b : Byte) : (s.loadByte b).ie = s.ie := rfl
@[simp] theorem State.loadByte_timingFault (b : Byte) : (s.loadByte b).timingFault = s.timingFault := rfl
@[simp] theorem State.loadByte_refused (b : Byte) : (s.loadByte b).refused = s.refused := rfl
@[simp] theorem State.loadByte_borrowed (b : Byte) : (s.loadByte b).borrowed = s.borrowed := rfl
@[simp] theorem State.loadByte_buf (b : Byte) : (s.loadByte b).buf = s.buf := rfl
@[simp] theorem State.loadByte_offer (b : Byte) : (s.loadByte b).offer = s.offer := rfl
@[simp] theorem State.loadByte_moves (b : Byte) : (s.loadByte b).moves = s.moves := rfl

/-! ### `heldTick` -/

@[simp] theorem State.heldTick_cfg : s.heldTick.cfg = s.cfg := rfl
@[simp] theorem State.heldTick_ph : s.heldTick.ph = s.ph := rfl
@[simp] theorem State.heldTick_dout : s.heldTick.dout = s.dout := rfl
@[simp] theorem State.heldTick_oe : s.heldTick.oe = s.oe := rfl
@[simp] theorem State.heldTick_sr : s.heldTick.sr = s.sr := rfl
@[simp] theorem State.heldTick_srck : s.heldTick.srck = s.srck := rfl
@[simp] theorem State.heldTick_imm : s.heldTick.imm = s.imm := rfl
@[simp] theorem State.heldTick_idx : s.heldTick.idx = s.idx := rfl
@[simp] theorem State.heldTick_rem : s.heldTick.rem = s.rem := rfl
@[simp] theorem State.heldTick_bitn : s.heldTick.bitn = s.bitn := rfl
@[simp] theorem State.heldTick_tcnt : s.heldTick.tcnt = s.tcnt := rfl
@[simp] theorem State.heldTick_lcnt : s.heldTick.lcnt = s.lcnt := rfl
@[simp] theorem State.heldTick_bright : s.heldTick.bright = s.bright := rfl
@[simp] theorem State.heldTick_guard : s.heldTick.guard = s.guard := rfl
@[simp] theorem State.heldTick_doLatch : s.heldTick.doLatch = s.doLatch := rfl
@[simp] theorem State.heldTick_lsel : s.heldTick.lsel = s.lsel := rfl
@[simp] theorem State.heldTick_savedIe : s.heldTick.savedIe = s.savedIe := rfl
@[simp] theorem State.heldTick_ie : s.heldTick.ie = s.ie := rfl
@[simp] theorem State.heldTick_timingFault : s.heldTick.timingFault = (s.timingFault || s.ph == .transmitting) := rfl
@[simp] theorem State.heldTick_refused : s.heldTick.refused = s.refused := rfl
@[simp] theorem State.heldTick_borrowed : s.heldTick.borrowed = s.borrowed := rfl
@[simp] theorem State.heldTick_buf : s.heldTick.buf = s.buf := rfl
@[simp] theorem State.heldTick_offer : s.heldTick.offer = s.offer := rfl
@[simp] theorem State.heldTick_moves : s.heldTick.moves = s.moves := rfl

/-! ### `resetBlock` -/

@[simp] theorem State.resetBlock_cfg : s.resetBlock.cfg = s.cfg := rfl
@[simp] theorem State.resetBlock_ph : s.resetBlock.ph = .idle := rfl
@[simp] theorem State.resetBlock_dout : s.resetBlock.dout = false := rfl
@[simp] theorem State.resetBlock_oe : s.resetBlock.oe = false := rfl
@[simp] theorem State.resetBlock_sr : s.resetBlock.sr = 0 := rfl
@[simp] theorem State.resetBlock_srck : s.resetBlock.srck = .imm := rfl
@[simp] theorem State.resetBlock_imm : s.resetBlock.imm = 0 := rfl
@[simp] theorem State.resetBlock_idx : s.resetBlock.idx = 0 := rfl
@[simp] theorem State.resetBlock_rem : s.resetBlock.rem = 0 := rfl
@[simp] theorem State.resetBlock_bitn : s.resetBlock.bitn = 0 := rfl
@[simp] theorem State.resetBlock_tcnt : s.resetBlock.tcnt = 0 := rfl
@[simp] theorem State.resetBlock_lcnt : s.resetBlock.lcnt = 0 := rfl
@[simp] theorem State.resetBlock_bright : s.resetBlock.bright = s.cfg.brightReset := rfl
@[simp] theorem State.resetBlock_guard : s.resetBlock.guard = false := rfl
@[simp] theorem State.resetBlock_doLatch : s.resetBlock.doLatch = false := rfl
@[simp] theorem State.resetBlock_lsel : s.resetBlock.lsel = false := rfl
@[simp] theorem State.resetBlock_savedIe : s.resetBlock.savedIe = false := rfl
@[simp] theorem State.resetBlock_ie : s.resetBlock.ie = (if s.guard then s.savedIe else s.ie) := rfl
@[simp] theorem State.resetBlock_timingFault : s.resetBlock.timingFault = s.timingFault := rfl
@[simp] theorem State.resetBlock_refused : s.resetBlock.refused = s.refused := rfl
@[simp] theorem State.resetBlock_borrowed : s.resetBlock.borrowed = 0 := rfl
@[simp] theorem State.resetBlock_buf : s.resetBlock.buf = s.buf := rfl
@[simp] theorem State.resetBlock_offer : s.resetBlock.offer = s.offer := rfl
@[simp] theorem State.resetBlock_moves : s.resetBlock.moves = s.moves := rfl

/-! ### `popMove` -/

@[simp] theorem State.popMove_cfg : s.popMove.cfg = s.cfg := rfl
@[simp] theorem State.popMove_ph : s.popMove.ph = s.ph := rfl
@[simp] theorem State.popMove_dout : s.popMove.dout = s.dout := rfl
@[simp] theorem State.popMove_oe : s.popMove.oe = s.oe := rfl
@[simp] theorem State.popMove_sr : s.popMove.sr = s.sr := rfl
@[simp] theorem State.popMove_srck : s.popMove.srck = s.srck := rfl
@[simp] theorem State.popMove_imm : s.popMove.imm = s.imm := rfl
@[simp] theorem State.popMove_idx : s.popMove.idx = s.idx := rfl
@[simp] theorem State.popMove_rem : s.popMove.rem = s.rem := rfl
@[simp] theorem State.popMove_bitn : s.popMove.bitn = s.bitn := rfl
@[simp] theorem State.popMove_tcnt : s.popMove.tcnt = s.tcnt := rfl
@[simp] theorem State.popMove_lcnt : s.popMove.lcnt = s.lcnt := rfl
@[simp] theorem State.popMove_bright : s.popMove.bright = s.bright := rfl
@[simp] theorem State.popMove_guard : s.popMove.guard = s.guard := rfl
@[simp] theorem State.popMove_doLatch : s.popMove.doLatch = s.doLatch := rfl
@[simp] theorem State.popMove_lsel : s.popMove.lsel = s.lsel := rfl
@[simp] theorem State.popMove_savedIe : s.popMove.savedIe = s.savedIe := rfl
@[simp] theorem State.popMove_ie : s.popMove.ie = s.ie := rfl
@[simp] theorem State.popMove_timingFault : s.popMove.timingFault = s.timingFault := rfl
@[simp] theorem State.popMove_refused : s.popMove.refused = s.refused := rfl
@[simp] theorem State.popMove_borrowed : s.popMove.borrowed = s.borrowed := rfl
@[simp] theorem State.popMove_buf : s.popMove.buf = s.buf := rfl
@[simp] theorem State.popMove_offer : s.popMove.offer = s.offer := rfl
@[simp] theorem State.popMove_moves : s.popMove.moves = s.moves.tail := rfl

/-! ### `present` -/

@[simp] theorem State.present_cfg (w : CmdWord) : (s.present w).cfg = s.cfg := rfl
@[simp] theorem State.present_ph (w : CmdWord) : (s.present w).ph = .idle := rfl
@[simp] theorem State.present_dout (w : CmdWord) : (s.present w).dout = s.dout := rfl
@[simp] theorem State.present_oe (w : CmdWord) : (s.present w).oe = s.oe := rfl
@[simp] theorem State.present_sr (w : CmdWord) : (s.present w).sr = s.sr := rfl
@[simp] theorem State.present_srck (w : CmdWord) : (s.present w).srck = s.srck := rfl
@[simp] theorem State.present_imm (w : CmdWord) : (s.present w).imm = s.imm := rfl
@[simp] theorem State.present_idx (w : CmdWord) : (s.present w).idx = s.idx := rfl
@[simp] theorem State.present_rem (w : CmdWord) : (s.present w).rem = s.rem := rfl
@[simp] theorem State.present_bitn (w : CmdWord) : (s.present w).bitn = s.bitn := rfl
@[simp] theorem State.present_tcnt (w : CmdWord) : (s.present w).tcnt = s.tcnt := rfl
@[simp] theorem State.present_lcnt (w : CmdWord) : (s.present w).lcnt = s.lcnt := rfl
@[simp] theorem State.present_bright (w : CmdWord) : (s.present w).bright = s.bright := rfl
@[simp] theorem State.present_guard (w : CmdWord) : (s.present w).guard = s.guard := rfl
@[simp] theorem State.present_doLatch (w : CmdWord) : (s.present w).doLatch = s.doLatch := rfl
@[simp] theorem State.present_lsel (w : CmdWord) : (s.present w).lsel = s.lsel := rfl
@[simp] theorem State.present_savedIe (w : CmdWord) : (s.present w).savedIe = s.savedIe := rfl
@[simp] theorem State.present_ie (w : CmdWord) : (s.present w).ie = s.ie := rfl
@[simp] theorem State.present_timingFault (w : CmdWord) : (s.present w).timingFault = s.timingFault := rfl
@[simp] theorem State.present_refused (w : CmdWord) : (s.present w).refused = s.refused := rfl
@[simp] theorem State.present_borrowed (w : CmdWord) : (s.present w).borrowed = s.borrowed := rfl
@[simp] theorem State.present_buf (w : CmdWord) : (s.present w).buf = s.buf := rfl
@[simp] theorem State.present_offer (w : CmdWord) : (s.present w).offer = some w := rfl
@[simp] theorem State.present_moves (w : CmdWord) : (s.present w).moves = .tick false false :: s.moves := rfl

end Sys2Proof.Machine
end

