-- ==== Sys2Proof/Laws/Ops.lean ====
section
/-! SUPPORT. Everything each shared operation can do, said once: the byte source, the end of a bit period, the tick of a
phase, each command at acceptance. -/

namespace Sys2Proof.Machine

variable {s t : State}

/-- The three byte sources (R24). -/
theorem nextByte_cases {b : Byte} (h : s.nextByte = .ok (b, t)) :
    (s.srck = .imm ∧ b = s.imm.extractLsb' 16 8 ∧
      t = { s with imm := s.imm.extractLsb' 0 16 ++ 0#8, rem := s.rem - 1 }) ∨
    (s.srck = .buf ∧ bufRead s.buf s.idx = some b ∧ t = { s with idx := s.idx + 1, rem := s.rem - 1 }) ∨
    (s.srck = .zero ∧ b = 0 ∧ t = { s with rem := s.rem - 1 }) := by
  unfold State.nextByte at h
  split at h
  · rename_i hs
    simp only [Except.ok.injEq, Prod.mk.injEq] at h
    exact .inl ⟨hs, h.1.symm, h.2.symm⟩
  · rename_i hs
    split at h
    · rename_i hb
      simp only [Except.ok.injEq, Prod.mk.injEq] at h
      exact .inr (.inl ⟨hs, h.1 ▸ hb, h.2.symm⟩)
    · cases h
  · rename_i hs
    simp only [Except.ok.injEq, Prod.mk.injEq] at h
    exact .inr (.inr ⟨hs, h.1.symm, h.2.symm⟩)

/-- A new byte changes the byte source alone. -/
theorem nextByte_frame {b : Byte} (h : s.nextByte = .ok (b, t)) :
    t = { s with imm := t.imm, idx := t.idx, rem := s.rem - 1 } := by
  obtain ⟨-, -, rfl⟩ | ⟨-, -, rfl⟩ | ⟨-, -, rfl⟩ := nextByte_cases h <;> rfl

/-- A byte source fails only at an index that `BUF` does not have. -/
theorem nextByte_error {f : Fault} (h : s.nextByte = .error f) :
    f = .bufNoSuchIndex ∧ s.srck = .buf ∧ ¬ s.idx.toNat < bufSize := by
  unfold State.nextByte at h
  split at h
  · cases h
  · rename_i hs
    split at h
    · cases h
    · rename_i hb
      cases h
      exact ⟨rfl, hs, fun hi => by simp [bufRead, hi] at hb⟩
  · cases h

/-- The end of the last byte, as one update (R117, R136). -/
theorem endOfBytes_eq (s : State) :
    s.endOfBytes =
      { s with
        bitn := 0
        ie := if s.guard then s.savedIe else s.ie
        guard := false
        ph := if s.doLatch then .latched else .idle
        lcnt := if s.doLatch then 0 else s.lcnt
        borrowed := if s.doLatch then s.borrowed else 0 } := by
  by_cases h : s.doLatch = true <;>
    simp [State.endOfBytes, State.enterLatched, State.enterIdle, State.releaseGuard, h]

/-- The three things that follow the last tick of a bit period (R117). -/
theorem bitEnd_cases (h : s.bitEnd = .ok t) :
    (1 < s.bitn.toNat ∧ t = s.nextBit) ∨
    (¬ 1 < s.bitn.toNat ∧ 0 < s.rem.toNat ∧ ∃ b u, s.nextByte = .ok (b, u) ∧ t = u.loadByte b) ∨
    (¬ 1 < s.bitn.toNat ∧ ¬ 0 < s.rem.toNat ∧ t = s.endOfBytes) := by
  unfold State.bitEnd at h
  split at h
  · cases h
    exact .inl ⟨‹_›, rfl⟩
  · split at h
    · split at h
      · rename_i b u hb
        cases h
        exact .inr (.inl ⟨‹_›, ‹_›, b, u, hb, rfl⟩)
      · cases h
    · cases h
      exact .inr (.inr ⟨‹_›, ‹_›, rfl⟩)

/-- A tick in `TRANSMITTING` (R116): inside a bit period, or its last. -/
theorem txTick_cases (h : s.txTick = .ok t) :
    (s.tcnt + 1 < s.cfg.p ∧
      t = { s with
        tcnt := s.tcnt + 1
        dout := if s.tcnt + 1 = highTicks s.cfg s.wireBit then false else s.dout }) ∨
    (¬ s.tcnt + 1 < s.cfg.p ∧ State.bitEnd { s with tcnt := 0 } = .ok t) := by
  unfold State.txTick at h
  dsimp only at h
  split at h
  · cases h
    exact .inl ⟨‹_›, rfl⟩
  · exact .inr ⟨‹_›, h⟩

/-- A tick inside a bit period (R116). -/
theorem txTick_inside (h : s.tcnt + 1 < s.cfg.p) :
    s.txTick = .ok { s with
      tcnt := s.tcnt + 1
      dout := if s.tcnt + 1 = highTicks s.cfg s.wireBit then false else s.dout } := by
  simp only [State.txTick, if_pos h]

/-- The last tick of a bit period (R116). -/
theorem txTick_last (h : s.cfg.p ≤ s.tcnt + 1) : s.txTick = State.bitEnd { s with tcnt := 0 } := by
  simp only [State.txTick, if_neg (Nat.not_lt.2 h)]

/-- More bits of the byte follow (R117). -/
theorem bitEnd_more (h : 1 < s.bitn.toNat) : s.bitEnd = .ok s.nextBit := by
  simp only [State.bitEnd, if_pos h]

/-- Another byte follows (R117). -/
theorem bitEnd_next {b : Byte} (h : s.bitn.toNat ≤ 1) (hr : 0 < s.rem.toNat) (hb : s.nextByte = .ok (b, t)) :
    s.bitEnd = .ok (t.loadByte b) := by
  simp only [State.bitEnd, if_neg (Nat.not_lt.2 h), if_pos hr, hb]

/-- Nothing follows (R117). -/
theorem bitEnd_last (h : s.bitn.toNat ≤ 1) (hr : s.rem = 0) : s.bitEnd = .ok s.endOfBytes := by
  have : ¬ 0 < s.rem.toNat := by simp [hr]
  simp only [State.bitEnd, if_neg (Nat.not_lt.2 h), if_neg this]

/-- The next immediate byte (R24). -/
theorem nextByte_imm (h : s.srck = .imm) :
    s.nextByte = .ok (s.imm.extractLsb' 16 8,
      { s with imm := s.imm.extractLsb' 0 16 ++ 0#8, rem := s.rem - 1 }) := by
  simp only [State.nextByte, h]

/-- The next byte of `BUF` (R24). -/
theorem nextByte_buf {b : Byte} (h : s.srck = .buf) (hb : bufRead s.buf s.idx = some b) :
    s.nextByte = .ok (b, { s with idx := s.idx + 1, rem := s.rem - 1 }) := by
  simp only [State.nextByte, h, hb]

/-- The next zero byte (R24). -/
theorem nextByte_zero (h : s.srck = .zero) : s.nextByte = .ok (0, { s with rem := s.rem - 1 }) := by
  simp only [State.nextByte, h]

/-- A tick inside the latch period (R139). -/
theorem latchTick_inside (h : s.lcnt + 1 < s.latchLen) : s.latchTick = { s with lcnt := s.lcnt + 1 } := by
  simp only [State.latchTick, if_pos h]

/-- The last tick of the latch period (R139). -/
theorem latchTick_last (h : s.latchLen ≤ s.lcnt + 1) :
    s.latchTick = State.enterIdle { s with lcnt := 0, doLatch := false } := by
  simp only [State.latchTick, if_neg (Nat.not_lt.2 h)]

/-- A tick in `LATCHED` (R139): inside the latch period, or its last. -/
theorem latchTick_cases (s : State) :
    (s.lcnt + 1 < s.latchLen ∧ s.latchTick = { s with lcnt := s.lcnt + 1 }) ∨
    (¬ s.lcnt + 1 < s.latchLen ∧
      s.latchTick = { s with lcnt := 0, doLatch := false, ph := .idle, borrowed := 0 }) := by
  by_cases h : s.lcnt + 1 < s.latchLen
  · exact .inl ⟨h, by simp [State.latchTick, h]⟩
  · exact .inr ⟨h, by simp [State.latchTick, h, State.enterIdle]⟩

/-- A pixel at acceptance is two immediates after a first byte (R150). -/
theorem sendPixel_eq (s : State) (x : Pixel) :
    s.sendPixel x =
      ((s.loadImm (immOf (wire3 s.cfg.wireOrder x).w1 (wire3 s.cfg.wireOrder x).w2) 2).unguarded false false).startTx
        (wire3 s.cfg.wireOrder x).w0 := rfl

/-- The hue wheel renders exactly the hues below 192 (R155). -/
theorem hueRgb_eq_none_iff (hue : Byte) (bright : Level2) : hueRgb hue bright = none ↔ 192 ≤ hue.toNat := by
  have hp : (huePhase hue).toNat = hue.toNat / 64 := by
    simp only [huePhase, BitVec.extractLsb'_toNat, Nat.shiftRight_eq_div_pow]
    have := hue.isLt
    omega
  have := hue.isLt
  unfold hueRgb
  dsimp only
  rw [hp]
  split <;> simp
  · omega
  · omega
  · omega
  · rename_i h0 h1 h2
    have h0 : hue.toNat / 64 ≠ 0 := h0
    have h1 : hue.toNat / 64 ≠ 1 := h1
    have h2 : hue.toNat / 64 ≠ 2 := h2
    omega

/-- `SEND_BYTE` on an initialised pin. -/
theorem exec_sendByte (h : s.oe = true) (v : Byte) :
    exec (.sendByte v) s = .next (((s.loadImm 0 0).unguarded false false).startTx v) := by
  simp only [exec, execSendByte, if_pos h]

/-- `WRITE_COLOR` on an initialised pin. -/
theorem exec_writeColor (h : s.oe = true) (r g b : Byte) :
    exec (.writeColor r g b) s = .next (s.sendPixel ⟨r, g, b⟩) := by
  simp only [exec, execWriteColor, if_pos h]

/-- `WRITE_HUE` of a hue that renders, on an initialised pin. -/
theorem exec_writeHue {hue : Byte} {x : Pixel} (h : s.oe = true) (hx : hueRgb hue s.bright = some x) :
    exec (.writeHue hue) s = .next (s.sendPixel x) := by
  simp only [exec, execWriteHue, if_pos h, hx]

/-- `WRITE_HUE` of a hue of phase 3, on an initialised pin. -/
theorem exec_writeHue_none {hue : Byte} (h : s.oe = true) (hx : hueRgb hue s.bright = none) :
    exec (.writeHue hue) s = .next s := by
  simp only [exec, execWriteHue, if_pos h, hx]

/-- `SEND_STREAM` with a byte to send, on an initialised pin. -/
theorem exec_sendStream {len : Count} (h : s.oe = true) (hl : len ≠ 0) :
    exec (.sendStream len) s = .next (((s.takeGuard false).loadBuf len).startTx (s.buf.get 0)) := by
  simp only [exec, execSendStream, if_pos h, if_neg hl, bufRead_zero]

/-- `SEND_STREAM 0` on an initialised pin. -/
theorem exec_sendStream_zero (h : s.oe = true) :
    exec (.sendStream 0) s = .next (s.unguarded true false).enterLatched := by
  simp only [exec, execSendStream, if_pos h, if_true]

/-- `CLEAR` with a pixel to clear, within the bound, on an initialised pin. -/
theorem exec_clear {n : Count} (h : s.oe = true) (hn : n ≠ 0) (hm : n.toNat ≤ s.cfg.maxPixels) :
    exec (.clear n) s = .next (((s.takeGuard true).loadZero (clearRem n)).startTx 0) := by
  simp only [exec, execClear, if_pos h, if_neg (Nat.not_lt.2 hm), if_neg hn]

/-- `CLEAR 0` on an initialised pin. -/
theorem exec_clear_zero (h : s.oe = true) : exec (.clear 0) s = .next (s.unguarded true true).enterLatched := by
  have : ¬ s.cfg.maxPixels < (0 : Count).toNat := by simp
  simp only [exec, execClear, if_pos h, if_neg this, if_true]

/-- Everything a command can do at acceptance when it answers a next state. -/
theorem exec_cases {i : Instr} (h : exec i s = .next t) :
    (i = .init ∧ t = { s with oe := true, dout := false }) ∨
    (∃ level, i = .setBright level ∧ level ≠ 3 ∧ t = { s with bright := level }) ∨
    (∃ hue, i = .writeHue hue ∧ s.oe = true ∧ 192 ≤ hue.toNat ∧ t = s) ∨
    (s.oe = true ∧ ((∃ v, i = .sendByte v) ∨ (∃ r g b, i = .writeColor r g b) ∨ ∃ hue, i = .writeHue hue ∧ hue.toNat < 192) ∧
      ∃ imm rem b, t = ((s.loadImm imm rem).unguarded false false).startTx b) ∨
    (s.oe = true ∧ ∃ ls, ((i = .sendStream 0 ∧ ls = false) ∨ (i = .clear 0 ∧ ls = true)) ∧
      t = (s.unguarded true ls).enterLatched) ∨
    (s.oe = true ∧ ∃ len, i = .sendStream len ∧ len ≠ 0 ∧
      t = ((s.takeGuard false).loadBuf len).startTx (s.buf.get 0)) ∨
    (s.oe = true ∧ ∃ n, i = .clear n ∧ n ≠ 0 ∧ n.toNat ≤ s.cfg.maxPixels ∧
      t = ((s.takeGuard true).loadZero (clearRem n)).startTx 0) := by
  cases i with
  | init =>
    simp only [exec, execInit, Host.Outcome.next.injEq] at h
    exact .inl ⟨rfl, h.symm⟩
  | sendByte v =>
    simp only [exec, execSendByte] at h
    split at h <;> cases h
    exact .inr (.inr (.inr (.inl ⟨‹_›, .inl ⟨v, rfl⟩, 0, 0, v, rfl⟩)))
  | writeColor r g b =>
    simp only [exec, execWriteColor] at h
    split at h <;> cases h
    exact .inr (.inr (.inr (.inl ⟨‹_›, .inr (.inl ⟨r, g, b, rfl⟩), _, _, _, rfl⟩)))
  | writeHue hue =>
    simp only [exec, execWriteHue] at h
    split at h
    · split at h <;> cases h
      · rename_i hx
        refine .inr (.inr (.inr (.inl ⟨‹_›, .inr (.inr ⟨hue, rfl, ?_⟩), _, _, _, rfl⟩)))
        by_contra hge
        rw [(hueRgb_eq_none_iff hue s.bright).2 (by omega)] at hx
        cases hx
      · rename_i hx
        exact .inr (.inr (.inl ⟨hue, rfl, ‹_›, (hueRgb_eq_none_iff hue s.bright).1 hx, rfl⟩))
    · cases h
  | sendStream len =>
    simp only [exec, execSendStream] at h
    split at h
    · split at h
      · rename_i hl
        cases h
        exact .inr (.inr (.inr (.inr (.inl ⟨‹_›, false, .inl ⟨by rw [hl], rfl⟩, rfl⟩))))
      · rename_i hl
        rw [bufRead_zero] at h
        cases h
        exact .inr (.inr (.inr (.inr (.inr (.inl ⟨‹_›, len, rfl, hl, rfl⟩)))))
    · cases h
  | clear n =>
    simp only [exec, execClear] at h
    split at h
    · split at h
      · cases h
      · rename_i hm
        split at h
        · rename_i hn
          cases h
          exact .inr (.inr (.inr (.inr (.inl ⟨‹_›, true, .inr ⟨by rw [hn], rfl⟩, rfl⟩))))
        · rename_i hn
          cases h
          exact .inr (.inr (.inr (.inr (.inr (.inr ⟨‹_›, n, rfl, hn, by omega, rfl⟩)))))
    · cases h
  | setBright level =>
    simp only [exec, execSetBright] at h
    split at h <;> cases h
    exact .inr (.inl ⟨level, rfl, ‹_›, rfl⟩)

/-- No command faults at acceptance. -/
theorem exec_ne_fault (i : Instr) (s : State) (f : Fault) : exec i s ≠ .fault f := by
  intro h
  cases i with
  | init => simp [exec, execInit] at h
  | sendByte v =>
    simp only [exec, execSendByte] at h
    split at h <;> cases h
  | writeColor r g b =>
    simp only [exec, execWriteColor] at h
    split at h <;> cases h
  | writeHue hue =>
    simp only [exec, execWriteHue] at h
    split at h
    · split at h <;> cases h
    · cases h
  | sendStream len =>
    simp only [exec, execSendStream, bufRead_zero] at h
    split at h
    · split at h <;> cases h
    · cases h
  | clear n =>
    simp only [exec, execClear] at h
    split at h
    · split at h
      · cases h
      · split at h <;> cases h
    · cases h
  | setBright level =>
    simp only [exec, execSetBright] at h
    split at h <;> cases h

end Sys2Proof.Machine
end

