-- ==== Sys2Proof/Laws/Words.lean ====
section
/-! SUPPORT. Fields of a word and joined words as arithmetic on numbers. -/

namespace Sys2Proof

/-- A joined word is a sum. -/
theorem toNat_append_eq {m n : Nat} (a : BitVec m) (b : BitVec n) :
    (a ++ b).toNat = a.toNat * 2 ^ n + b.toNat := by
  rw [BitVec.toNat_append, ← Nat.shiftLeft_add_eq_or_of_lt b.isLt, Nat.shiftLeft_eq]

/-- A field is a quotient and a remainder. -/
theorem toNat_extract_eq {m : Nat} (w : BitVec m) (lo n : Nat) :
    (w.extractLsb' lo n).toNat = w.toNat / 2 ^ lo % 2 ^ n := by
  simp only [BitVec.extractLsb'_toNat, Nat.shiftRight_eq_div_pow]

/-- A word under a mask of its bits from `k` up is a multiple of `2 ^ k`. -/
theorem toNat_and_high (w m : CmdWord) (k : Nat) (hm : m = (BitVec.allOnes 32 >>> k) <<< k) :
    (w &&& m).toNat = w.toNat / 2 ^ k * 2 ^ k := by
  have h : w &&& m = (w >>> k) <<< k := by
    subst hm
    ext i hi
    simp only [BitVec.getElem_and, BitVec.getElem_shiftLeft]
    by_cases hik : i < k
    · simp [hik]
    · have e : k + (i - k) = i := by omega
      simp [hik, e, hi, BitVec.getLsbD_eq_getElem, -BitVec.reduceAllOnes]
  have hw := w.isLt
  have hle : w.toNat / 2 ^ k * 2 ^ k ≤ w.toNat := Nat.div_mul_le_self _ _
  rw [h, BitVec.toNat_shiftLeft, BitVec.toNat_ushiftRight, Nat.shiftLeft_eq, Nat.shiftRight_eq_div_pow]
  exact Nat.mod_eq_of_lt (by omega)

end Sys2Proof
end

