-- ==== Sys2Proof/Laws/PerInstr.lean ====
section
/-! SUPPORT. Facts about every command as syntax, one lemma per constructor: its word meets its row of the opcode map
(spec/30_encoding.md rule R78). -/

namespace Sys2Proof.Laws.EncodeMatch

/-- The word of a command meets the mask and match of its row of the opcode map. -/
def Statement (i : Instr) : Prop := (opcodeRow i).matches (encode i) = true

/-- A word meets a row whose mask is all the bits from `k` up when the row's match is the word with its low bits
cleared. -/
theorem matches_high {w : CmdWord} {row : OpcodeRow} (k : Nat) (hm : row.mask = (BitVec.allOnes 32 >>> k) <<< k)
    (hw : w.toNat / 2 ^ k * 2 ^ k = row.pattern.toNat) : row.matches w = true := by
  simp only [OpcodeRow.matches, beq_iff_eq]
  apply BitVec.eq_of_toNat_eq
  rw [toNat_and_high w row.mask k hm, hw]

theorem init : Statement .init := by
  unfold Statement
  decide

theorem sendByte (v : Byte) : Statement (.sendByte v) :=
  matches_high 8 rfl (by
    have e : (encode (.sendByte v)).toNat = 2 * 2 ^ 24 + v.toNat := by
      show (0x02#8 ++ 0#16 ++ v).toNat = _
      rw [toNat_append_eq, toNat_append_eq]
      rfl
    have := v.isLt
    rw [e, show (opcodeRow (.sendByte v)).pattern.toNat = 2 * 2 ^ 24 from rfl]
    omega)

theorem writeColor (r g b : Byte) : Statement (.writeColor r g b) :=
  matches_high 24 rfl (by
    have e : (encode (.writeColor r g b)).toNat = ((3 * 2 ^ 8 + r.toNat) * 2 ^ 8 + g.toNat) * 2 ^ 8 + b.toNat := by
      show (0x03#8 ++ r ++ g ++ b).toNat = _
      rw [toNat_append_eq, toNat_append_eq, toNat_append_eq]
      rfl
    have := r.isLt
    have := g.isLt
    have := b.isLt
    rw [e, show (opcodeRow (.writeColor r g b)).pattern.toNat = 3 * 2 ^ 24 from rfl]
    omega)

theorem writeHue (hue : Byte) : Statement (.writeHue hue) :=
  matches_high 8 rfl (by
    have e : (encode (.writeHue hue)).toNat = 4 * 2 ^ 24 + hue.toNat := by
      show (0x04#8 ++ 0#16 ++ hue).toNat = _
      rw [toNat_append_eq, toNat_append_eq]
      rfl
    have := hue.isLt
    rw [e, show (opcodeRow (.writeHue hue)).pattern.toNat = 4 * 2 ^ 24 from rfl]
    omega)

theorem sendStream (len : Count) : Statement (.sendStream len) :=
  matches_high 16 rfl (by
    have e : (encode (.sendStream len)).toNat = 5 * 2 ^ 24 + len.toNat := by
      show (0x05#8 ++ 0#8 ++ len).toNat = _
      rw [toNat_append_eq, toNat_append_eq]
      rfl
    have := len.isLt
    rw [e, show (opcodeRow (.sendStream len)).pattern.toNat = 5 * 2 ^ 24 from rfl]
    omega)

theorem clear (n : Count) : Statement (.clear n) :=
  matches_high 16 rfl (by
    have e : (encode (.clear n)).toNat = 6 * 2 ^ 24 + n.toNat := by
      show (0x06#8 ++ 0#8 ++ n).toNat = _
      rw [toNat_append_eq, toNat_append_eq]
      rfl
    have := n.isLt
    rw [e, show (opcodeRow (.clear n)).pattern.toNat = 6 * 2 ^ 24 from rfl]
    omega)

theorem setBright (level : Level2) : Statement (.setBright level) :=
  matches_high 2 rfl (by
    have e : (encode (.setBright level)).toNat = 7 * 2 ^ 24 + level.toNat := by
      show (0x07#8 ++ 0#22 ++ level).toNat = _
      rw [toNat_append_eq, toNat_append_eq]
      rfl
    have := level.isLt
    rw [e, show (opcodeRow (.setBright level)).pattern.toNat = 7 * 2 ^ 24 from rfl]
    omega)

end Sys2Proof.Laws.EncodeMatch
end

