-- ==== Sys2Proof/Laws/Receiver.lean ====
section
/-! SUPPORT. What the reading of a trace does with an idle LOW and with a pulse. -/

namespace Sys2Proof.Machine

/-- A leading LOW is dropped. -/
@[simp] theorem dropIdle_low (k : Nat) (t : Trace) : dropIdle (⟨.low, k⟩ :: t) = t := rfl

/-- A trace that starts with a HIGH loses nothing. -/
@[simp] theorem dropIdle_high (k : Nat) (t : Trace) : dropIdle (⟨.high, k⟩ :: t) = ⟨.high, k⟩ :: t := rfl

/-- The reading of a trace that starts with a pulse, by the class of its HIGH, its period and its LOW (R98). -/
theorem readPulses_pulse (c : Config) (h l : Nat) (t : Trace) :
    readPulses c (⟨.high, h⟩ :: ⟨.low, l⟩ :: t) =
      match bitOf c h with
      | none => none
      | some b =>
        if (h + l) * 1000000000 < 1150 * c.fClk then none
        else
          match lowClass c l with
          | .goesOn => (readPulses c t).map (fun es => .bit b :: es)
          | .latchLow => (readPulses c t).map (fun es => .bit b :: .latch :: es)
          | .indeterminate => none :=
  if_pos ⟨rfl, rfl⟩

/-- What cannot be read after a pulse cannot be read with it. -/
theorem readPulses_pulse_none {c : Config} {t : Trace} (ht : readPulses c t = none) (h l : Nat) :
    readPulses c (⟨.high, h⟩ :: ⟨.low, l⟩ :: t) = none := by
  rw [readPulses_pulse]
  cases bitOf c h with
  | none => rfl
  | some b =>
    by_cases hp : (h + l) * 1000000000 < 1150 * c.fClk
    · simp only [if_pos hp]
    · cases hl : lowClass c l <;> simp only [if_neg hp, ht, Option.map_none]

/-- A trace with an undriven segment cannot be read (R101). -/
theorem readTrace_undriven {c : Config} {t : Trace} {g : Seg} (hg : g ∈ t) (hz : g.level = .z) : readTrace c t = none := by
  have : t.any (fun g => g.level == .z) = true := List.any_eq_true.2 ⟨g, hg, by rw [hz]; rfl⟩
  rw [readTrace, if_pos this]

/-- A trace whose pulses cannot be read cannot be read. -/
theorem readTrace_none {c : Config} {t : Trace} (h : readPulses c (dropIdle t) = none) : readTrace c t = none := by
  unfold readTrace
  split
  · rfl
  · exact h

end Sys2Proof.Machine
end

