-- ==== Sys2Proof/Laws/Step.lean ====
section
/-! SUPPORT. Everything a tick, a host move and a step can do, said once. -/

namespace Sys2Proof.Machine

variable {s t : State}

/-- A tick of reset. -/
theorem tick_reset (s : State) (hold : Bool) : tick true hold s = .next s.resetBlock := rfl

/-- A tick of an idle block to which nothing is offered. -/
theorem tick_idle (hp : s.ph = .idle) (ho : s.offer = none) (hold : Bool) : tick false hold s = .next s := by
  simp only [tick, Bool.false_eq_true, if_false, hp, ho]

/-- A tick of an idle block to which a word is offered. -/
theorem tick_accept {w : CmdWord} (hp : s.ph = .idle) (ho : s.offer = some w) (hold : Bool) :
    tick false hold s = accept w s := by
  simp only [tick, Bool.false_eq_true, if_false, hp, ho]

/-- A tick that an effective hold freezes. -/
theorem tick_held {hold : Bool} (hp : s.ph ≠ .idle) (hh : (hold && s.ie) = true) :
    tick false hold s = .next s.heldTick := by
  unfold tick
  rw [if_neg (by decide)]
  split
  · exact absurd ‹_› hp
  · rw [if_pos hh]
  · rw [if_pos hh]

/-- A tick in `TRANSMITTING` that nothing freezes. -/
theorem tick_transmitting {hold : Bool} (hp : s.ph = .transmitting) (hh : (hold && s.ie) = false) :
    tick false hold s = outcomeOf s.txTick := by
  simp only [tick, Bool.false_eq_true, if_false, hp, hh]

/-- A tick in `LATCHED` that nothing freezes. -/
theorem tick_latched {hold : Bool} (hp : s.ph = .latched) (hh : (hold && s.ie) = false) :
    tick false hold s = .next s.latchTick := by
  simp only [tick, Bool.false_eq_true, if_false, hp, hh]

/-- Acceptance of a word that decodes. -/
theorem accept_ok {w : CmdWord} {i : Instr} (h : decode w = .ok i) (s : State) : accept w s = exec i s.takeOffer := by
  simp only [accept, h]

/-- Everything a tick can do when it answers a next state (R118). -/
theorem tick_cases {rst hold : Bool} (h : tick rst hold s = .next t) :
    (rst = true ∧ t = s.resetBlock) ∨
    (rst = false ∧ s.ph = .idle ∧ s.offer = none ∧ t = s) ∨
    (rst = false ∧ s.ph = .idle ∧ ∃ w i, s.offer = some w ∧ decode w = .ok i ∧ exec i s.takeOffer = .next t) ∨
    (rst = false ∧ s.ph ≠ .idle ∧ (hold && s.ie) = true ∧ t = s.heldTick) ∨
    (rst = false ∧ s.ph = .transmitting ∧ (hold && s.ie) = false ∧ s.txTick = .ok t) ∨
    (rst = false ∧ s.ph = .latched ∧ (hold && s.ie) = false ∧ t = s.latchTick) := by
  unfold tick at h
  cases rst with
  | true =>
    rw [if_pos rfl] at h
    cases h
    exact .inl ⟨rfl, rfl⟩
  | false =>
    rw [if_neg (by decide)] at h
    split at h
    · rename_i hp
      split at h
      · rename_i w hw
        unfold accept at h
        split at h
        · rename_i i hi
          exact .inr (.inr (.inl ⟨rfl, hp, w, i, hw, hi, h⟩))
        · cases h
      · rename_i hn
        cases h
        exact .inr (.inl ⟨rfl, hp, hn, rfl⟩)
    · rename_i hp
      split at h
      · rename_i hh
        cases h
        exact .inr (.inr (.inr (.inl ⟨rfl, by simp [hp], hh, rfl⟩)))
      · rename_i hh
        unfold outcomeOf at h
        split at h
        · rename_i u hu
          cases h
          exact .inr (.inr (.inr (.inr (.inl ⟨rfl, hp, by simpa using hh, hu⟩))))
        · cases h
    · rename_i hp
      split at h
      · rename_i hh
        cases h
        exact .inr (.inr (.inr (.inl ⟨rfl, by simp [hp], hh, rfl⟩)))
      · rename_i hh
        cases h
        exact .inr (.inr (.inr (.inr (.inr ⟨rfl, hp, by simpa using hh, rfl⟩))))

/-- Everything a move of the surroundings can do when it answers a next state (R245). -/
theorem runMove_cases {m : Move} (h : runMove m s = .next t) :
    (∃ w, m = .offer w ∧ ((s.offer = none ∧ t = { s with offer := some w }) ∨ (s.offer = some w ∧ t = s))) ∨
    (∃ v, m = .writeIe v ∧ s.guard = false ∧ t = { s with ie := v }) ∨
    (∃ i v b, m = .writeBuf i v ∧ s.borrowed.toNat ≤ i.toNat ∧ bufWrite s.buf i v = some b ∧ t = { s with buf := b }) ∨
    (∃ rst hold, m = .tick rst hold ∧ tick rst hold s = .next t) := by
  cases m with
  | offer w =>
    simp only [runMove, hostOffer] at h
    split at h
    · rename_i ho
      cases h
      exact .inl ⟨w, rfl, .inl ⟨ho, rfl⟩⟩
    · rename_i v ho
      split at h
      · rename_i hv
        cases h
        exact .inl ⟨w, rfl, .inr ⟨hv ▸ ho, rfl⟩⟩
      · cases h
  | writeIe v =>
    simp only [runMove, hostWriteIe] at h
    split at h
    · cases h
    · rename_i hg
      cases h
      exact .inr (.inl ⟨v, rfl, by simpa using hg, rfl⟩)
  | writeBuf i v =>
    simp only [runMove, hostWriteBuf] at h
    split at h
    · cases h
    · split at h
      · rename_i b hb
        cases h
        exact .inr (.inr (.inl ⟨i, v, b, rfl, by omega, hb, rfl⟩))
      · cases h
  | tick rst hold => exact .inr (.inr (.inr ⟨rst, hold, rfl, h⟩))

/-- A step that answers a next state runs the next move of an unrefused run on a well-formed instance. -/
theorem step_cases (h : step s = .next t) :
    s.refused = false ∧ s.cfg.WellFormed ∧ runMove s.nextMove s.popMove = .next t := by
  unfold step runNext at h
  split at h
  · cases h
  · rename_i hr
    split at h
    · exact ⟨by simpa using hr, ‹_›, h⟩
    · cases h

/-- What a step is, once the run is not refused and the instance is well formed. -/
theorem step_eq (hr : s.refused = false) (hc : s.cfg.WellFormed) : step s = runMove s.nextMove s.popMove := by
  simp only [step, runNext, hr, if_pos hc]
  rfl

/-- What a step is when a tick comes next. -/
theorem step_tick {rst hold : Bool} (hr : s.refused = false) (hc : s.cfg.WellFormed)
    (hm : s.nextMove = .tick rst hold) : step s = tick rst hold s.popMove := by
  rw [step_eq hr hc, hm]
  rfl

/-- What a step is when a listed move comes next. -/
theorem step_move {m : Move} {ms : List Move} (hr : s.refused = false) (hc : s.cfg.WellFormed)
    (hm : s.moves = m :: ms) : step s = runMove m { s with moves := ms } := by
  rw [step_eq hr hc]
  simp only [State.nextMove, State.popMove, hm, List.headD_cons, List.tail_cons]

/-- A tick comes next when no move is listed. -/
theorem nextMove_nil (h : s.moves = []) : s.nextMove = .tick false false := by simp [State.nextMove, h]

/-- The first listed move comes next. -/
theorem nextMove_cons {m : Move} {ms : List Move} (h : s.moves = m :: ms) : s.nextMove = m := by
  simp [State.nextMove, h]

end Sys2Proof.Machine
end

