-- ==== Sys2Proof/Laws/Run.lean ====
section
/-! SUPPORT. Runs of several steps and their pad levels, taken apart step by step. -/

namespace Sys2Proof.Machine

variable {s t : State}

/-- No step. -/
@[simp] theorem runSteps_zero (s : State) : runSteps 0 s = some s := rfl

/-- What a run of at least one step comes to, by the outcome of its first step. -/
theorem run_succ (s : State) (k : Nat) :
    Host.Core.run Sys2Proof.core (k + 1) s =
      match step s with
      | .next t => Host.Core.run Sys2Proof.core k t
      | .fault r => .fault r
      | .refused r => .refused r := by
  have e : (Sys2Proof.core).step s = step s := rfl
  simp only [Host.Core.run, e]
  cases step s <;> rfl

/-- A step and then the others. -/
theorem runSteps_succ (h : step s = .next t) (k : Nat) : runSteps (k + 1) s = runSteps k t := by
  simp only [runSteps, run_succ, h]

/-- A run of at least one step that goes through has a first step that does. -/
theorem runSteps_succ_inv {k : Nat} {u : State} (h : runSteps (k + 1) s = some u) :
    ∃ t, step s = .next t ∧ runSteps k t = some u := by
  cases hs : step s with
  | next t => exact ⟨t, rfl, by rw [← runSteps_succ hs]; exact h⟩
  | fault r => simp [runSteps, run_succ, hs, nextState] at h
  | refused r => simp [runSteps, run_succ, hs, nextState] at h

/-- A run and then another. -/
theorem runSteps_add {j k : Nat} {u : State} (h : runSteps j s = some t) (hu : runSteps k t = some u) :
    runSteps (j + k) s = some u := by
  induction j generalizing s with
  | zero =>
    cases h
    rw [Nat.zero_add]
    exact hu
  | succ j ih =>
    obtain ⟨v, hv, hr⟩ := runSteps_succ_inv h
    rw [show j + 1 + k = (j + k) + 1 by omega, runSteps_succ hv]
    exact ih hr

/-- No pad level without a step. -/
@[simp] theorem padTrace_zero (s : State) : padTrace 0 s = [] := rfl

/-- The pad level of a tick and then those of the steps after it. -/
theorem padTrace_tick {rst hold : Bool} (hm : s.nextMove = .tick rst hold) (h : step s = .next t) (k : Nat) :
    padTrace (k + 1) s = s.pad :: padTrace k t := by
  simp [padTrace, State.nextIsTick, hm, h]

/-- The pad levels of a run and then another. -/
theorem padTrace_add {j : Nat} (h : runSteps j s = some t) (k : Nat) :
    padTrace (j + k) s = padTrace j s ++ padTrace k t := by
  induction j generalizing s with
  | zero =>
    cases h
    rw [Nat.zero_add]
    rfl
  | succ j ih =>
    obtain ⟨v, hv, hr⟩ := runSteps_succ_inv h
    rw [show j + 1 + k = (j + k) + 1 by omega]
    simp only [padTrace, hv, ih hr, List.append_assoc]

/-- A plain tick in `TRANSMITTING`, when nothing is to come. -/
theorem step_transmitting_plain (hr : s.refused = false) (hc : s.cfg.WellFormed) (hm : s.moves = [])
    (hp : s.ph = .transmitting) : step s = outcomeOf s.txTick := by
  have hpop : s.popMove = s := by
    cases s
    simp only [State.popMove]
    simp only at hm
    simp [hm]
  rw [step_tick hr hc (nextMove_nil hm), hpop, tick_transmitting hp (by simp)]

/-- A plain tick in `LATCHED`, when nothing is to come. -/
theorem step_latched_plain (hr : s.refused = false) (hc : s.cfg.WellFormed) (hm : s.moves = [])
    (hp : s.ph = .latched) : step s = .next s.latchTick := by
  have hpop : s.popMove = s := by
    cases s
    simp only [State.popMove]
    simp only at hm
    simp [hm]
  rw [step_tick hr hc (nextMove_nil hm), hpop, tick_latched hp (by simp)]

/-- What `advance` does, by the outcome of the step. -/
theorem advance_next (h : step s = .next t) : s.advance = t := by simp [State.advance, h]

theorem advance_refused {r : Refusal} (h : step s = .refused r) : s.advance = { s with refused := true } := by
  simp [State.advance, h]

theorem advance_fault {f : Fault} (h : step s = .fault f) : s.advance = s := by simp [State.advance, h]

end Sys2Proof.Machine
end

