-- ==== Sys2Proof/Tests/Slice0.lean ====
section
/-! SUPPORT. The model's own tests. Expected values are the spec's vectors (spec/95_test_vectors.md) or worked by hand from
the rule named. The `witness_` theorems show a state and operands that meet the hypotheses of a statement together. -/

namespace Sys2Proof.Tests

open Sys2Proof.Machine

/-! ### Well-formed commands and decoding -/

/-- The one check of `Instr.wf` refuses an ill-formed command (R79 (c)), and its neighbour passes. -/
theorem test_wf_level : Instr.wf (.setBright 3) = false ∧ Instr.wf (.setBright 2) = true := by decide

/-- V-ENC: `INIT`, format N. -/
theorem test_decode_init : decode 0x01000000#32 = .ok .init := by decide

/-- V-ENC: `SEND_BYTE`, format B. -/
theorem test_decode_send_byte : decode 0x020000A5#32 = .ok (.sendByte 0xA5) := by decide

/-- V-ENC: `WRITE_COLOR`, format C: red at 23:16, green at 15:8, blue at 7:0. -/
theorem test_decode_write_color :
    decode 0x030A141E#32 = .ok (.writeColor 10 20 30) ∧ decode 0x03FF0080#32 = .ok (.writeColor 255 0 128) := by
  decide

/-- V-ENC: `WRITE_HUE`, format B; 255 is well spelt. -/
theorem test_decode_write_hue :
    decode 0x040000BF#32 = .ok (.writeHue 191) ∧ decode 0x040000FF#32 = .ok (.writeHue 255) := by decide

/-- V-ENC: `SEND_STREAM`, format L. -/
theorem test_decode_send_stream :
    decode 0x05000003#32 = .ok (.sendStream 3) ∧ decode 0x0500FFFF#32 = .ok (.sendStream 65535) := by decide

/-- V-ENC: `CLEAR`, format L; a count that is too large is well spelt. -/
theorem test_decode_clear :
    decode 0x0600003C#32 = .ok (.clear 60) ∧ decode 0x06005556#32 = .ok (.clear 21846) := by decide

/-- V-ENC: `SET_BRIGHT`, format V. -/
theorem test_decode_set_bright : decode 0x07000002#32 = .ok (.setBright 2) := by decide

/-- V-ENC: reserved by opcode. -/
theorem test_reserved_opcode :
    [0x00000000#32, 0x00FFFFFF#32, 0x08000000#32, 0x80000000#32, 0xFFFFFFFF#32].map decode =
      List.replicate 5 (.error .opcode) := by decide

/-- V-ENC: reserved by a must-be-zero bit. -/
theorem test_reserved_bits :
    [0x01000001#32, 0x020001A5#32, 0x04010000#32, 0x05010000#32, 0x06FF0000#32, 0x07000004#32].map decode =
      List.replicate 6 (.error .mustBeZero) := by decide

/-- V-ENC: reserved by level. -/
theorem test_reserved_level : decode 0x07000003#32 = .error .level := by decide

/-- The decoder on a table word, its bits numbered as spec/opcode_table.json numbers them. -/
theorem test_table_word :
    decodeTableWord 32 0x030A141E = some (.writeColor 10 20 30) ∧ decodeTableWord 32 0x07000003 = none := by decide

/-- R91: `LATCH` and `CLEAR_ALL` (V-ENC: `0x0600003C` when `MAX_PIXELS = 60`). -/
theorem test_assemble :
    assemble Config.ex8 .latch [] = some (.sendStream 0) ∧ assemble Config.ex8 .clearAll [] = some (.clear 60) ∧
    assemble Config.ex8 .sendByte [256] = none := by decide

/-! ### Configurations -/

/-- An instance whose two latch parameters are set apart, that of `CLEAR` the shorter (R6). -/
def shortClear : Config := { Config.ex8 with latchTicks := 4000, latchTicksClear := 2248 }

/-- Whether a configuration is refused. -/
def refusedConfig (c : Config) : Bool := !decide c.WellFormed

/-- V-PROFILE: the example instances are well formed. -/
theorem test_examples_well_formed :
    Config.ex8.WellFormed ∧ Config.ex16.WellFormed ∧ Config.ex2.WellFormed := by decide

/-- V-PROFILE: the row (4, 5, 10), both HIGH times on their bounds, is well formed. -/
theorem test_profile_on_bounds : Config.WellFormed { Config.ex8 with h0 := 4, h1 := 5 } := by decide

/-- V-PROFILE: T0H too long, T1H too short, TCT too short, no LOW, no HIGH. -/
theorem test_profile_refused :
    [{ Config.ex8 with h0 := 5 }, { Config.ex8 with h1 := 4 }, { Config.ex8 with p := 9 },
      { Config.ex8 with h1 := 10 }, { Config.ex8 with h0 := 0 }].all refusedConfig = true := by decide

/-- V-PROFILE: the latch too short, `LOW_MAX` too small and too large, `MAX_PIXELS` and `BRIGHT_RESET` out of range. -/
theorem test_limits_refused :
    [{ Config.ex8 with latchTicks := 2247 }, { Config.ex8 with lowMax := 7 }, { Config.ex8 with lowMax := 2248 },
      { Config.ex8 with maxPixels := 21846 }, { Config.ex8 with brightReset := 3 }].all refusedConfig = true := by
  decide

/-! ### Small states -/

/-- An idle block after `INIT`, interrupts enabled, with `BUF = FF 00 80` (Program 3). -/
def idleOn : State := { State.ofConfig Config.ex8 with oe := true, ie := true, buf := [(0, 0xFF), (2, 0x80)] }

/-- The same with a command offered. -/
def offering (i : Instr) : State := { idleOn with offer := some (encode i) }

/-- A block sending the first bit of a byte, not under the guard, its interrupts disabled. -/
def sending (v : Byte) : State :=
  { idleOn with ie := false, ph := .transmitting, dout := true, sr := v, bitn := 8 }

/-- The same in the last tick of a bit period, with so many bits of the byte not yet finished. -/
def lastTick (v : Byte) (bitn : BitVec 4) : State :=
  { sending v with tcnt := 9, dout := false, bitn := bitn }

/-- The last tick of the last bit of a byte, with a source, a number of bytes to come and whether a latch follows. -/
def lastOf (k : Source) (rem : Count) (latch : Bool) : State :=
  { lastTick 1 1 with srck := k, rem := rem, doLatch := latch }

/-- A `SEND_STREAM 3` sending its first byte under the guard (Program 3, tick 1). -/
def guardedOn : State :=
  { sending 0xFF with
    srck := .buf, idx := 1, rem := 2, borrowed := 3
    guard := true, savedIe := true, doLatch := true }

/-- A block in its latch period. -/
def latching (k : Nat) : State := { idleOn with ph := .latched, lcnt := k, doLatch := true }

/-- A state with moves to come. -/
def before (s : State) (ms : List Move) : State := { s with moves := ms }

/-- `CLEAR 1` offered to an idle block over a buffer of zeros. -/
def darkOffering : State := { offering (.clear 1) with buf := [] }

/-- A state with interrupts enabled. -/
def enabled (s : State) : State := { s with ie := true }

/-- A block sending a byte in the last tick but one of a bit period. -/
def nearEnd (v : Byte) : State := { sending v with tcnt := 8, dout := false }

/-- A state with a word standing on the command port. -/
def offeringWord (s : State) (w : CmdWord) : State := { s with offer := some w }

/-- What a step leaves of a state, if it leaves one. -/
def after {α : Type} (s : State) (f : State → α) : Option α := (nextState (step s)).map f

/-! ### The commands -/

/-- V-CLEAR: `INIT` drives the pad LOW; Program 4: it leaves `BRIGHT`. -/
theorem test_init :
    after { State.reset with offer := some 0x01000000#32, bright := 2 } (fun t => (t.pad, t.oe, t.bright, t.ph)) =
      some (.low, true, 2, .idle) := by decide

/-- V-SENDBYTE: acceptance of `SEND_BYTE 0x80`. -/
theorem test_send_byte :
    after (offering (.sendByte 0x80)) (fun t => (t.ph, t.sr, t.bitn)) = some (.transmitting, 0x80, 8) ∧
    after (offering (.sendByte 0x80)) (fun t => (t.tcnt, t.dout, t.rem, t.ie)) = some (0, true, 0, true) := by decide

/-- E6, V-COLOR: the document's numeric example under `GRB`. -/
theorem test_write_color_grb :
    after (offering (.writeColor 10 20 30)) (fun t => (t.sr, t.imm, t.rem, t.guard, t.doLatch)) =
      some (0x14, 0x0A1E00, 2, false, false) := by decide

/-- E6, V-COLOR: the same under `RGB`. -/
theorem test_write_color_rgb :
    after { offering (.writeColor 10 20 30) with cfg := { Config.ex8 with wireOrder := .rgb } }
      (fun t => (t.sr, t.imm, t.rem)) = some (0x0A, 0x141E00, 2) := by decide

/-- V-HUE: hue 100 at brightness 1 is (0, 54, 72), on the wire `36 00 48`. -/
theorem test_write_hue :
    after { offering (.writeHue 100) with bright := 1 } (fun t => (t.sr, t.imm, t.rem)) =
      some (0x36, 0x004800, 2) := by decide

/-- V-HUE: hue 200 changes nothing but takes the word; with `OE = 0` it is refused. -/
theorem test_write_hue_phase_three :
    nextState (step (offering (.writeHue 200))) = some idleOn ∧
    refusalOf (step { offering (.writeHue 200) with oe := false }) = some .notInitialised := by decide

/-- V-STREAM, Program 3: acceptance of `SEND_STREAM 3`. -/
theorem test_send_stream :
    after (offering (.sendStream 3)) (fun t => (t.sr, t.idx, t.rem)) = some (0xFF, 1, 2) ∧
    after (offering (.sendStream 3)) (fun t => (t.guard, t.savedIe, t.ie, t.doLatch, t.lsel)) =
      some (true, true, false, true, false) := by decide

/-- V-STREAM: the empty stream latches, without the guard. -/
theorem test_send_stream_empty :
    after (offering (.sendStream 0)) (fun t => (t.ph, t.lcnt, t.guard, t.ie, t.dout, t.doLatch)) =
      some (.latched, 0, false, true, false, true) := by decide

/-- V-CLEAR, Program 1: acceptance of `CLEAR 2`. -/
theorem test_clear :
    after (offering (.clear 2)) (fun t => (t.ph, t.sr, t.rem, t.guard, t.ie, t.lsel)) =
      some (.transmitting, 0, 5, true, false, true) ∧
    clearRem 21845 = 65534 := by decide

/-- Program 5, V-CLEAR: `CLEAR 61` with `MAX_PIXELS = 60`, with and without `INIT`. -/
theorem test_clear_too_long :
    refusalOf (step (offering (.clear 61))) = some .clearTooLong ∧
    refusalOf (step { offering (.clear 61) with oe := false }) = some .notInitialised := by decide

/-- V-BRIGHT, Program 5: `SET_BRIGHT 2` is taken before `INIT`; level 3 and a reserved word are refused, the latter before
`OE` is looked at (V-PORT). -/
theorem test_set_bright :
    after { State.reset with offer := some 0x07000002#32 } (fun t => t.bright) = some 2 ∧
    refusalOf (step { State.reset with offer := some 0x07000003#32 }) = some .reservedCommand ∧
    refusalOf (step { State.reset with offer := some 0x06010005#32 }) = some .reservedCommand := by decide

/-- R163: rows of the table of hues. -/
theorem test_hue_rgb :
    hueRgb 1 0 = some ⟨62, 1, 0⟩ ∧ hueRgb 32 2 = some ⟨124, 128, 0⟩ ∧ hueRgb 63 1 = some ⟨0, 126, 0⟩ ∧
    hueRgb 64 1 = some ⟨0, 126, 0⟩ ∧ hueRgb 127 2 = some ⟨0, 0, 252⟩ ∧ hueRgb 160 0 = some ⟨32, 0, 31⟩ ∧
    hueRgb 191 2 = some ⟨252, 0, 0⟩ ∧ hueRgb 192 0 = none := by decide

/-! ### The tick -/

/-- V-SENDBYTE, tick 6: the end of the HIGH time of a 1. -/
theorem test_high_time_ends :
    after { sending 0x80 with tcnt := 5 } (fun t => (t.tcnt, t.dout)) = some (6, false) ∧
    after { sending 0x00 with tcnt := 2 } (fun t => (t.tcnt, t.dout)) = some (3, false) := by decide

/-- V-SENDBYTE, tick 10: the next bit. -/
theorem test_next_bit :
    after (lastTick 0x80 8) (fun t => (t.sr, t.bitn, t.tcnt, t.dout)) = some (0x00, 7, 0, true) := by decide

/-- V-COLOR: after the first byte `SR <- w1`, `IMM <- {w2, 0, 0}`, `REM <- 1`. -/
theorem test_next_byte_imm :
    after { lastTick 0x14 1 with imm := 0x0A1E00, rem := 2 } (fun t => (t.sr, t.imm, t.rem, t.bitn, t.dout)) =
      some (0x0A, 0x1E0000, 1, 8, true) := by decide

/-- Program 3, ticks 80 and 160: `BufRead(1)` and `BufRead(2)`. -/
theorem test_next_byte_buf :
    after { guardedOn with tcnt := 9, dout := false, bitn := 1 } (fun t => (t.sr, t.idx, t.rem)) = some (0x00, 2, 1) ∧
    after { guardedOn with tcnt := 9, dout := false, bitn := 1, idx := 2, rem := 1 } (fun t => (t.sr, t.idx, t.rem)) =
      some (0x80, 3, 0) := by decide

/-- Program 3, tick 240: the guard is released, the saved `IE` comes back, the latch begins. -/
theorem test_guard_released :
    after { guardedOn with tcnt := 9, dout := false, bitn := 1, rem := 0, idx := 3, moves := [.tick false true] }
      (fun t => (t.ph, t.ie, t.guard, t.bitn, t.lcnt)) = some (.latched, true, false, 0, 0) := by decide

/-- V-SENDBYTE, tick 80: no guard, no latch: idle. -/
theorem test_byte_done : after (lastTick 0x00 1) (fun t => (t.ph, t.bitn, t.dout)) = some (.idle, 0, false) := by decide

/-- R139: the latch of `EX8` counts 0 .. 2247. -/
theorem test_latch_ends :
    after (latching 2246) (fun t => (t.ph, t.lcnt)) = some (.latched, 2247) ∧
    after (latching 2247) (fun t => (t.ph, t.lcnt, t.doLatch)) = some (.idle, 0, false) := by decide

/-- Program 3b: an effective hold freezes the block and leaves the ghost bit; in the latch it leaves nothing. -/
theorem test_hold :
    after { sending 0x00 with ie := true, moves := [.tick false true] } (fun t => (t.tcnt, t.dout, t.timingFault)) =
      some (0, true, true) ∧
    after { latching 5 with moves := [.tick false true] } (fun t => (t.lcnt, t.timingFault)) = some (5, false) := by
  decide

/-- V-RESET: a reset under the guard restores `IE`; without the guard it does not write `IE`; `BRIGHT` is reset; ghost bits
stay. -/
theorem test_reset :
    after { guardedOn with bright := 2, timingFault := true, moves := [.tick true false] }
      (fun t => (t.ph, t.dout, t.pad, t.bright)) = some (.idle, false, .z, 0) ∧
    after { guardedOn with timingFault := true, moves := [.tick true false] }
      (fun t => (t.guard, t.ie, t.timingFault)) = some (false, true, true) ∧
    after { guardedOn with savedIe := false, moves := [.tick true false] } (fun t => t.ie) = some false ∧
    after { sending 0x80 with ie := true, moves := [.tick true true] } (fun t => (t.ie, t.timingFault)) =
      some (true, false) := by decide

/-- V-PORT: in a tick of reset nothing is accepted. -/
theorem test_reset_wins :
    after { offering (.sendByte 1) with moves := [.tick true false] } (fun t => (t.ph, t.offer)) =
      some (.idle, some 0x02000001#32) := by decide

/-- The host's moves (R245): L3 and D1 on the bytes of the `SEND_STREAM` in flight, L4 and D2. -/
theorem test_host_moves :
    after { guardedOn with moves := [.writeBuf 3 7] } (fun t => bufRead t.buf 3) = some (some 7) ∧
    faultOf (step { guardedOn with moves := [.writeBuf 2 7] }) = some .hostWritesBorrowedBuf ∧
    faultOf (step { guardedOn with moves := [.writeBuf 65535 7] }) = some .bufNoSuchIndex ∧
    faultOf (step { guardedOn with moves := [.writeIe true] }) = some .hostWritesIeUnderGuard ∧
    faultOf (step { offering .init with moves := [.offer 0x07000000#32] }) = some .hostChangesOffer := by decide

/-- Writing the value that an unlisted byte reads as takes the index off the list. -/
theorem test_memory_canonical :
    Memory.set [(0, 0xFF), (2, 0x80)] 2 0 = [(0, 0xFF)] ∧ Memory.set [(0, 0xFF), (2, 0x80)] 1 5 = [(0, 0xFF), (1, 5), (2, 0x80)] := by
  decide

/-- A word put where the next command is taken from is what the very next step runs. -/
theorem test_fetch_word :
    after (State.reset.withFetchWord 32 0x07000001) (fun t => (t.bright, t.offer)) = some (1, none) ∧
    refusalOf (step (State.reset.withFetchWord 32 0x03010203)) = some .notInitialised := by decide

/-! ### The wire and its reading -/

/-- V-WIRE: `byte_trace(0xA5)` at `EX2`. -/
theorem test_byte_trace :
    byteTrace Config.ex2 0xA5 =
      [⟨.high, 2⟩, ⟨.low, 1⟩, ⟨.high, 1⟩, ⟨.low, 2⟩, ⟨.high, 2⟩, ⟨.low, 1⟩, ⟨.high, 1⟩, ⟨.low, 2⟩,
       ⟨.high, 1⟩, ⟨.low, 2⟩, ⟨.high, 2⟩, ⟨.low, 1⟩, ⟨.high, 1⟩, ⟨.low, 2⟩, ⟨.high, 2⟩, ⟨.low, 1⟩] := by decide

/-- V-DECODE: `bit_of` at `EX16`. -/
theorem test_bit_of :
    bitOf Config.ex16 8 = some false ∧ bitOf Config.ex16 9 = none ∧ bitOf Config.ex16 10 = some true := by decide

/-- V-DECODE: `low_class` at `EX8`. -/
theorem test_low_class :
    lowClass Config.ex8 40 = .goesOn ∧ lowClass Config.ex8 41 = .indeterminate ∧
    lowClass Config.ex8 2247 = .indeterminate ∧ lowClass Config.ex8 2248 = .latchLow := by decide

/-- V-DECODE: rows of the table of traces. -/
theorem test_read_trace :
    readTrace Config.ex8 [] = some [] ∧ readTrace Config.ex8 [⟨.low, 5000⟩] = some [] ∧
    readTrace Config.ex8 [⟨.high, 3⟩, ⟨.low, 7⟩, ⟨.high, 3⟩] = none ∧
    readTrace Config.ex8 [⟨.low, 1⟩, ⟨.high, 3⟩, ⟨.low, 7⟩, ⟨.high, 3⟩] = none ∧
    readTrace Config.ex8 [⟨.high, 3⟩, ⟨.low, 5⟩] = none ∧
    readTrace Config.ex8 [⟨.high, 3⟩, ⟨.low, 100⟩, ⟨.high, 3⟩, ⟨.low, 7⟩] = none ∧
    readTrace Config.ex8 [⟨.high, 3⟩, ⟨.low, 2248⟩, ⟨.high, 6⟩, ⟨.low, 4⟩] = some [.bit false, .latch, .bit true] ∧
    readTrace Config.ex8 [⟨.z, 1⟩, ⟨.low, 10⟩, ⟨.high, 3⟩, ⟨.low, 7⟩] = none ∧
    readTrace Config.ex8 [⟨.high, 5⟩, ⟨.low, 7⟩] = some [.bit true] := by decide

/-- Program 3: `FF 00 80` under `GRB` is the pixel (0, 255, 128). -/
theorem test_read_frame :
    readFrame .grb ([0xFF, 0x00, 0x80].flatMap bitsOf) = ⟨[⟨0, 255, 128⟩], [], []⟩ := by decide

/-! ### Witnesses for the statements -/

/-- `DecodeOfEncode`: a well-formed command at the top of its field. -/
theorem witness_decode_of_encode : Instr.wf (.setBright 2) = true ∧ Instr.wf (.clear 65535) = true := by decide

/-- `EncodeOfDecode`: words that decode. -/
theorem witness_encode_of_decode : decode 0x03FFFFFF#32 = .ok (.writeColor 255 255 255) := by decide

/-- `ReservedWordsRefused`: an idle block to which a word of each reserved kind is offered. -/
theorem witness_reserved :
    (offeringWord idleOn 0x08000000#32).ticksNext false false ∧
    (offeringWord idleOn 0x08000000#32).ph = .idle ∧
    decode 0x08000000#32 = .error .opcode ∧ decode 0x07FFFFFC#32 = .error .mustBeZero ∧
    decode 0x07000003#32 = .error .level := by decide

/-- `StepRunsDecodedCommand`, `PresentedWordRuns`: an idle block with a command offered, held or not. -/
theorem witness_step_runs :
    (offering (.sendByte 0x80)).ticksNext false false ∧
    State.ticksNext (before (offering (.clear 0)) [.tick false true]) false true ∧
    (offering (.sendByte 0x80)).ph = .idle ∧ decode (encode (.sendByte 0x80)) = .ok (.sendByte 0x80) ∧
    State.reset.refused = false ∧ State.reset.cfg.WellFormed ∧ State.reset.ph = .idle := by decide

/-- `OfferWaitsWhileBusy`: an idle block with nothing offered, and a busy one that goes on. -/
theorem witness_offer_waits :
    (idleOn.ticksNext false false ∧ idleOn.ph = .idle ∧ idleOn.offer = none) ∧
    ((latching 2247).ticksNext false false ∧ (latching 2247).ph ≠ .idle ∧
      (nextState (step (latching 2247))).isSome = true) := by decide

/-- `ResetTick`: a tick of reset under the guard, and one right after it. -/
theorem witness_reset_tick :
    State.ticksNext (before guardedOn [.tick true false, .tick true true]) true false ∧
    after { guardedOn with moves := [.tick true false, .tick true true] } (fun t => decide (t.ticksNext true true)) =
      some true ∧
    ((nextState (step { guardedOn with moves := [.tick true false, .tick true true] })).bind
      (fun t => nextState (step t))).isSome = true := by decide

/-- `HoldFreezes`: one witness for each clause. -/
theorem witness_hold_freezes :
    ((before (enabled (sending 1)) [.tick false true]).ticksNext false true ∧
      (enabled (sending 1)).ie = true ∧ (enabled (sending 1)).ph = .transmitting) ∧
    (State.ticksNext (before (latching 0) [.tick false true]) false true ∧ (latching 0).ie = true) ∧
    ((sending 1).ie = false ∧ idleOn.ph = .idle) := by decide

/-- `TickInsideBit`: the tick before the last of a bit period, and the first. -/
theorem witness_tick_inside :
    (nearEnd 1).ticksNext false false ∧ (nearEnd 1).tcnt + 1 < (nearEnd 1).cfg.p ∧ (sending 1).ph = .transmitting ∧
    8 + 1 < Config.ex8.p ∧ (sending 1).tcnt + 1 < (sending 1).cfg.p := by decide

/-- `BitPeriodEnds`: a last tick with more bits to come, and a last tick of the last bit for each of the three sources and
for the end of the bytes with and without a latch. -/
theorem witness_bit_period_ends :
    ((lastTick 1 2).ticksNext false false ∧ (lastTick 1 2).tcnt + 1 = (lastTick 1 2).cfg.p ∧
      1 < (lastTick 1 2).bitn.toNat) ∧
    ((lastOf .imm 1 false).ticksNext false false ∧ (lastOf .imm 1 false).ph = .transmitting) ∧
    ((lastOf .imm 1 false).tcnt + 1 = (lastOf .imm 1 false).cfg.p ∧ (lastOf .imm 1 false).bitn.toNat ≤ 1 ∧
      0 < (lastOf .imm 1 false).rem.toNat ∧ (lastOf .imm 1 false).srck = .imm) :=
  ⟨by decide, by decide, by decide⟩

theorem witness_bit_period_ends_sources :
    ((lastOf .buf 1 true).srck = .buf ∧ bufRead (lastOf .buf 1 true).buf (lastOf .buf 1 true).idx = some 0xFF ∧
      (lastOf .buf 1 true).ticksNext false false) ∧
    ((lastOf .zero 1 true).srck = .zero ∧ (lastOf .zero 1 true).ticksNext false false) ∧
    ((lastOf .imm 0 true).rem = 0 ∧ (lastOf .imm 0 true).doLatch = true ∧ (lastOf .imm 0 false).doLatch = false) ∧
    ((lastOf .imm 0 true).ticksNext false false ∧ (lastOf .imm 0 false).ticksNext false false) :=
  ⟨by decide, by decide, by decide, by decide⟩

/-- `LatchTickCounts`: the tick before the last and the last. -/
theorem witness_latch_tick :
    (latching 2246).ticksNext false false ∧ (latching 2246).ph = .latched ∧ 2246 + 1 < Config.ex8.latchTicks ∧
    (latching 2247).ticksNext false false ∧ Config.ex8.latchTicks ≤ 2247 + 1 := by decide

/-- `InitCompletes`: an idle, initialised block that meets the invariant. -/
theorem witness_init : idleOn.Inv ∧ idleOn.ph = .idle ∧ idleOn.oe = true := by decide

/-- `SendByteCompletes`, `WriteColorCompletes`, `WriteColorIgnoresBright`: an initialised block of either wire order. -/
theorem witness_write_color :
    idleOn.oe = true ∧ idleOn.cfg.wireOrder = .grb ∧
    Config.wireOrder { Config.ex8 with wireOrder := .rgb } = .rgb := by decide

/-- `WriteHueCompletes`, `HuePhaseThreeDoesNothing`, `WriteHueIsPure`: hues on both sides of every boundary. -/
theorem witness_write_hue :
    idleOn.oe = true ∧ State.reset.oe = false ∧ idleOn.bright ≠ 3 ∧ (191#8).toNat < 192 ∧ 192 ≤ (192#8).toNat ∧
    (63#8).toNat / 64 = 0 ∧ (64#8).toNat / 64 = 1 ∧ (127#8).toNat / 64 = 1 ∧ (128#8).toNat / 64 = 2 := by decide

/-- `SendStreamCompletes`: the longest and the empty stream. -/
theorem witness_send_stream : idleOn.oe = true ∧ (65535 : Count) ≠ 0 ∧ (0 : Count) = 0 := by decide

/-- `ClearCompletes`: the largest count, and the smallest that is refused. -/
theorem witness_clear :
    idleOn.oe = true ∧ (60 : Count) ≠ 0 ∧ (60 : Count).toNat ≤ idleOn.cfg.maxPixels ∧
    idleOn.cfg.maxPixels ≤ 21845 ∧ idleOn.cfg.maxPixels < (61 : Count).toNat ∧
    Config.WellFormed { Config.ex8 with maxPixels := 21845 } := by decide

/-- `SetBrightCompletes`, `UninitialisedRefused`: a level that is not 3, and a block before `INIT`. -/
theorem witness_set_bright : (2 : Level2) ≠ 3 ∧ State.reset.oe = false := by decide

/-- `FirstByteLoaded` and the frames: every command answers a next state of an initialised block. -/
theorem witness_frames :
    ([.init, .sendByte 1, .writeColor 1 2 3, .writeHue 5, .writeHue 200, .sendStream 3, .sendStream 0, .clear 60,
      .clear 0, .setBright 2].map (fun i => (nextState (exec i idleOn)).isSome)) = List.replicate 10 true := by decide

/-- `BlockNeverWritesBuf`, `ReadsOnlyAddressedByte`, `InterruptEnablePort`: a tick that goes on, in which the block reads
`BUF[0]`; other contents that agree there. -/
theorem witness_buf :
    (offering (.sendStream 3)).ticksNext false false ∧
    (nextState (step (offering (.sendStream 3)))).isSome = true ∧
    (offering (.sendStream 3)).bufAddr false false = some 0 ∧
    bufRead [(0, 0xFF), (9, 1)] 0 = bufRead (offering (.sendStream 3)).buf 0 ∧
    (offering (.sendStream 3)).ieWrite false false = some false := by decide

/-- `HostMovesTakeEffect`, `InterruptEnablePort`: the first byte that is not borrowed, the last byte of `BUF`, a write of `IE`
without the guard, an offer on a free port and a repeated one. -/
theorem witness_host_moves :
    State.hostNext (before guardedOn [.writeBuf 3 7]) (.writeBuf 3 7) [] ∧ guardedOn.buf.wf = true ∧
    guardedOn.borrowed.toNat ≤ (3 : Count).toNat ∧ (65534 : Count).toNat ≤ 65534 ∧
    (State.hostNext (before idleOn [.writeIe false]) (.writeIe false) [] ∧ idleOn.guard = false) ∧
    (State.hostNext (before idleOn [.offer 7]) (.offer 7) [] ∧ idleOn.offer = none) ∧
    (State.hostNext (before (offeringWord idleOn 7) [.offer 7]) (.offer 7) []) :=
  ⟨by decide, by decide, by decide, by decide, by decide, by decide, by decide⟩

/-- `HostDutiesStop`: the last borrowed byte, the index that `BUF` does not have, `IE` under the guard, another word. -/
theorem witness_host_duties :
    (State.hostNext (before guardedOn [.writeBuf 2 7]) (.writeBuf 2 7) [] ∧
      (2 : Count).toNat < guardedOn.borrowed.toNat) ∧
    (State.hostNext (before guardedOn [.writeBuf 65535 7]) (.writeBuf 65535 7) [] ∧
      guardedOn.borrowed.toNat ≤ (65535 : Count).toNat ∧ 65534 < (65535 : Count).toNat) ∧
    (State.hostNext (before guardedOn [.writeIe true]) (.writeIe true) [] ∧ guardedOn.guard = true) ∧
    (State.hostNext (before (offeringWord idleOn 8) [.offer 7]) (.offer 7) [] ∧ (8 : CmdWord) ≠ 7) :=
  ⟨by decide, by decide, by decide, by decide⟩

/-- `RefusedAndIllFormedStop`: a refused run, an ill-formed instance, a well-formed one. -/
theorem witness_refused :
    State.refused { idleOn with refused := true } = true ∧ idleOn.refused = false ∧
    refusedConfig { Config.ex8 with h0 := 0 } = true ∧ Config.ex8.WellFormed := by decide

/-- `HueChannels`, `HueWheelContinuous`: a hue of each phase, a level, two hues of which one is greater, and the last hue of a
phase that has a neighbour in it. -/
theorem witness_hue :
    (191#8).toNat < 192 ∧ (2 : Level2) ≠ 3 ∧ (63#8).toNat < (64#8).toNat ∧ (64#8).toNat < 192 ∧
    (62#8).toNat % 64 < 63 ∧ (0#8).toNat < (191#8).toNat := by decide

/-- `ResetMeetsInvariant`, `StepKeepsInvariant`: well-formed parameters are instantiated; states that meet the invariant and
go on, in every phase. -/
theorem witness_invariant :
    (nextState (instantiate Config.ex16)).isSome = true ∧
    ((sending 0x80).Inv ∧ (nextState (step (sending 0x80))).isSome = true) ∧
    (guardedOn.Inv ∧ (nextState (step guardedOn)).isSome = true) ∧
    ((latching 2247).Inv ∧ (nextState (step (latching 2247))).isSome = true) :=
  ⟨by decide, by decide, by decide, by decide⟩

/-- `BrightChangesOnly`, `OutputEnableChangesOnly`, `TimingFaultExactly`: steps of each kind go on. -/
theorem witness_changes :
    after (offering (.setBright 2)) (fun t => t.bright) = some 2 ∧
    after { State.reset with offer := some (encode .init) } (fun t => t.oe) = some true ∧
    after { idleOn with moves := [.tick true false] } (fun t => t.oe) = some false := by decide

/-- `GhostMarksStay`: a step that is refused, and states that carry a mark. -/
theorem witness_marks :
    refusalOf (step (offering (.clear 61))) = some .clearTooLong ∧
    State.refused { idleOn with refused := true } = true ∧
    State.timingFault { idleOn with timingFault := true } = true := by decide

/-- `PhaseTransitions`: a step that changes the phase, of each kind. -/
theorem witness_phase :
    after (offering (.sendByte 1)) (fun t => t.ph) = some .transmitting ∧
    after (offering (.sendStream 0)) (fun t => t.ph) = some .latched ∧
    after (lastTick 0 1) (fun t => t.ph) = some .idle ∧ after (latching 2247) (fun t => t.ph) = some .idle ∧
    after { latching 7 with moves := [.tick true false] } (fun t => t.ph) = some .idle := by decide

/-- `TicksNeverFault`: states that meet the invariant, before a tick that goes on and before one that is refused for each of
the reasons. -/
theorem witness_ticks :
    (guardedOn.Inv ∧ guardedOn.ticksNext false false) ∧
    ((offering (.clear 61)).Inv ∧ refusalOf (step (offering (.clear 61))) = some .clearTooLong) ∧
    ((offeringWord State.reset 0x02000080#32).Inv ∧
      refusalOf (step (offeringWord State.reset 0x02000080#32)) = some .notInitialised) ∧
    ((offeringWord State.reset 0#32).Inv ∧
      refusalOf (step (offeringWord State.reset 0#32)) = some .reservedCommand) :=
  ⟨⟨by decide, by decide⟩, ⟨by decide, by decide⟩, ⟨by decide, by decide⟩, ⟨by decide, by decide⟩⟩

/-- `GuardIgnoresHolds`: a guarded state that meets the invariant. -/
theorem witness_guard : guardedOn.Inv ∧ guardedOn.guard = true ∧ guardedOn.refused = false := by decide

/-- `CommandTrace`, `StreamReadsEachByteOnce`, `EmptyFrameOnlyLatches`, `ClearEqualsZeroStream`, `GuardedPulsesIgnoreHolds`, `StreamShowsPixels`:
commands offered to an idle block that meets the invariant. -/
theorem witness_offered (i : Instr) (hi : i.wf = true) (hn : ∀ n, i = .clear n → n.toNat ≤ 60) :
    (offering i).offered i := ⟨rfl, rfl, rfl, rfl, rfl, hi, hn⟩

theorem witness_offered_inv : (offering (.sendByte 1)).Inv ∧ (offering (.sendStream 0)).Inv := ⟨by decide, by decide⟩

/-- `GuardedPulsesIgnoreHolds`: as many holds as the pulses of the frame have ticks, with the tick of acceptance. -/
theorem witness_holds :
    (List.replicate 241 true).length =
      1 + 8 * (offering (.sendStream 3)).cfg.p * (wireBytes (offering (.sendStream 3)) (.sendStream 3)).length := by
  rw [List.length_replicate]
  decide

/-- `ClearEqualsZeroStream`: one pixel over a buffer of zeros with the default latch parameters. -/
theorem witness_clear_equals_stream :
    darkOffering.Inv ∧ darkOffering.offered (.clear 1) ∧ darkOffering.cfg.latchTicksClear = darkOffering.cfg.latchTicks ∧
    (3 : Count).toNat = 3 * (1 : Count).toNat ∧ ∀ i, i < (3 : Count).toNat → darkOffering.buf.get i = 0 :=
  ⟨by decide, ⟨rfl, rfl, rfl, rfl, rfl, rfl, fun _ h => by cases h; decide⟩, by decide, by decide, fun _ _ => rfl⟩

/-- `StreamShowsPixels`, `PixelsReadBack`: `FF 00 80` are the wire bytes of the pixel (0, 255, 128). -/
theorem witness_pixels :
    (offering (.sendStream 3)).Inv ∧ (3 : Count).toNat = 3 * [Pixel.mk 0 255 128].length ∧
    [Pixel.mk 0 255 128] ≠ [] ∧
    bufBytes (offering (.sendStream 3)).buf (3 : Count).toNat =
      [Pixel.mk 0 255 128].flatMap (fun x => (wire3 (offering (.sendStream 3)).cfg.wireOrder x).toList) := by decide

/-- `ProfileReadsBack`, `ReadingRoundTrip`, `SlowestClock`: a well-formed configuration whose `CLEAR` latch is the shorter of
the two, and a latch of exactly that length. -/
theorem witness_reading :
    shortClear.WellFormed ∧ shortClear.latchTicksClear < shortClear.latchTicks ∧
    281 * shortClear.fClk ≤ shortClear.latchTicksClear * 1000000 := by decide

/-- `IndeterminateTraces`: an undriven segment, the two forms of the idle LOW, and one witness for each hypothesis, at
`EX16`. -/
theorem witness_indeterminate :
    ((⟨.z, 1⟩ : Seg) ∈ ([⟨.z, 1⟩] : Trace) ∧ (⟨.z, 1⟩ : Seg).level = .z) ∧
    (([] : Trace) = [] ∧ ([⟨.low, 1⟩] : Trace) = [⟨.low, 1⟩]) ∧
    ([⟨.high, 6⟩, ⟨.low, 14⟩] : Trace) = [(6, 14)].flatMap (fun x => [⟨.high, x.1⟩, ⟨.low, x.2⟩]) ∧
    (3 + 15) * 1000000000 < 1150 * Config.ex16.fClk ∧
    (500 * Config.ex16.fClk < 9 * 1000000000 ∧ 9 * 1000000000 < 625 * Config.ex16.fClk) ∧
    (Config.ex16.lowMax < 81 ∧ 81 * 1000000 < 281 * Config.ex16.fClk) := by decide

end Sys2Proof.Tests
end

section
/-! PROOFS. Which words decode to which command, which are reserved and why, and what acceptance does with those
(spec/30_encoding.md rules R78 and R79). -/

namespace Sys2Proof

/-! ### Masks and fields -/

/-- A word under a mask of its bits from `k` up, `k` within the operand field, is a bare opcode exactly when the word
has that opcode and the bits between are 0. -/
theorem and_high_eq_iff (w m : CmdWord) (k : Nat) (op : BitVec 8) (hk : k ≤ 24)
    (hm : m = (BitVec.allOnes 32 >>> k) <<< k) :
    w &&& m = op ++ 0#24 ↔ opcodeOf w = op ∧ w.extractLsb' k (24 - k) = 0 := by
  have hsplit : 2 ^ 24 = 2 ^ (24 - k) * 2 ^ k := by rw [← Nat.pow_add, Nat.sub_add_cancel hk]
  have hquot : w.toNat / 2 ^ 24 = w.toNat / 2 ^ k / 2 ^ (24 - k) := by
    rw [Nat.div_div_eq_div_mul, Nat.mul_comm, hsplit]
  have hop : (opcodeOf w).toNat = w.toNat / 2 ^ 24 := by
    rw [opcodeOf, toNat_extract_eq]
    exact Nat.mod_eq_of_lt (by have := w.isLt; omega)
  have hp : (op ++ 0#24).toNat = op.toNat * 2 ^ 24 := by
    rw [toNat_append_eq, BitVec.toNat_ofNat, Nat.zero_mod, Nat.add_zero]
  calc w &&& m = op ++ 0#24
      ↔ w.toNat / 2 ^ k = op.toNat * 2 ^ (24 - k) := by
        rw [BitVec.toNat_eq, toNat_and_high w m k hm, hp, hsplit, ← Nat.mul_assoc]
        exact Nat.mul_left_inj (Nat.two_pow_pos k).ne'
    _ ↔ w.toNat / 2 ^ k / 2 ^ (24 - k) = op.toNat ∧ w.toNat / 2 ^ k % 2 ^ (24 - k) = 0 := by
        rw [Nat.div_mod_unique (Nat.two_pow_pos _)]
        simp [Nat.mul_comm, eq_comm]
    _ ↔ opcodeOf w = op ∧ w.extractLsb' k (24 - k) = 0 := by
        rw [BitVec.toNat_eq, BitVec.toNat_eq, hop, hquot, toNat_extract_eq]
        rfl

/-- A word of format N (R72) under the mask of its rows. -/
theorem formatN_iff (w : CmdWord) (op : BitVec 8) :
    opcodeOf w = op ∧ operandField w = 0 ↔ w &&& 0xFFFFFFFF#32 = op ++ 0#24 :=
  (and_high_eq_iff w _ 0 op (by decide) rfl).symm

/-- A word of format B (R73) under the mask of its rows; `P` is about its operand. -/
theorem formatB_iff (w : CmdWord) (op : BitVec 8) {P : Prop} :
    opcodeOf w = op ∧ zeroB w = 0 ∧ P ↔ w &&& 0xFFFFFF00#32 = op ++ 0#24 ∧ P := by
  rw [and_high_eq_iff w 0xFFFFFF00#32 8 op (by decide) rfl, and_assoc]
  rfl

/-- A word of format C (R74) under the mask of its rows: it has no bit that must be 0. -/
theorem formatC_iff (w : CmdWord) (op : BitVec 8) : opcodeOf w = op ↔ w &&& 0xFF000000#32 = op ++ 0#24 := by
  rw [and_high_eq_iff w 0xFF000000#32 24 op (by decide) rfl]
  exact (and_iff_left BitVec.of_length_zero).symm

/-- A word of format L (R75) under the mask of its rows; `P` is about its operand. -/
theorem formatL_iff (w : CmdWord) (op : BitVec 8) {P : Prop} :
    opcodeOf w = op ∧ byteLane2 w = 0 ∧ P ↔ w &&& 0xFFFF0000#32 = op ++ 0#24 ∧ P := by
  rw [and_high_eq_iff w 0xFFFF0000#32 16 op (by decide) rfl, and_assoc]
  rfl

/-- A word of format V (R76) under the mask of its row; `P` is about its level. -/
theorem formatV_iff (w : CmdWord) (op : BitVec 8) {P : Prop} :
    opcodeOf w = op ∧ zeroV w = 0 ∧ P ↔ w &&& 0xFFFFFFFC#32 = op ++ 0#24 ∧ P := by
  rw [and_high_eq_iff w 0xFFFFFFFC#32 2 op (by decide) rfl, and_assoc]
  rfl

/-! ### What the decoder answers -/

variable {w : CmdWord}

/-- The fields of `w` spell the command: its opcode, zeros where its format wants them (R72 to R76), its operands
(R77), and no level 3 (R79 (c)). -/
def Spells (w : CmdWord) : Instr → Prop
  | .init => opcodeOf w = 1#8 ∧ operandField w = 0#24
  | .sendByte v => opcodeOf w = 2#8 ∧ zeroB w = 0#16 ∧ v = byteLane0 w
  | .writeColor r g b => opcodeOf w = 3#8 ∧ r = byteLane2 w ∧ g = byteLane1 w ∧ b = byteLane0 w
  | .writeHue hue => opcodeOf w = 4#8 ∧ zeroB w = 0#16 ∧ hue = byteLane0 w
  | .sendStream len => opcodeOf w = 5#8 ∧ byteLane2 w = 0#8 ∧ len = countField w
  | .clear n => opcodeOf w = 6#8 ∧ byteLane2 w = 0#8 ∧ n = countField w
  | .setBright level => opcodeOf w = 7#8 ∧ zeroV w = 0#22 ∧ level = levelField w ∧ level ≠ 3#2

/-- The fields of `w` give the reason to reserve it (R79). A must-be-zero bit is looked at before the level. -/
def ReservedFor (w : CmdWord) : Reserved → Prop
  | .opcode => (opcodeOf w).toNat = 0 ∨ 8 ≤ (opcodeOf w).toNat
  | .mustBeZero =>
    (opcodeOf w = 1#8 ∧ operandField w ≠ 0#24) ∨ (opcodeOf w = 2#8 ∧ zeroB w ≠ 0#16) ∨
      (opcodeOf w = 4#8 ∧ zeroB w ≠ 0#16) ∨ (opcodeOf w = 5#8 ∧ byteLane2 w ≠ 0#8) ∨
      (opcodeOf w = 6#8 ∧ byteLane2 w ≠ 0#8) ∨ (opcodeOf w = 7#8 ∧ zeroV w ≠ 0#22)
  | .level => opcodeOf w = 7#8 ∧ zeroV w = 0#22 ∧ levelField w = 3#2

/-- What the decoder answers, read off the fields. -/
def Answers (w : CmdWord) : Except Reserved Instr → Prop
  | .ok i => Spells w i
  | .error why => ReservedFor w why

/-- The answer of a format with must-be-zero bits. -/
theorem answers_ifZero {n : Nat} {z : BitVec n} {i : Instr} (hok : z = 0#n → Spells w i)
    (hbad : z ≠ 0#n → ReservedFor w .mustBeZero) : Answers w (ifZero (z == 0) i) := by
  by_cases hz : z = 0#n
  · simpa [Answers, ifZero, hz] using hok hz
  · simpa [Answers, ifZero, hz] using hbad hz

/-- The decoder's answer is what the fields say, opcode by opcode. -/
theorem answers_decode (w : CmdWord) : Answers w (decode w) := by
  unfold decode
  split
  next h =>
    replace h : opcodeOf w = 1#8 := BitVec.eq_of_toNat_eq h
    exact answers_ifZero (fun hz => ⟨h, hz⟩) (fun hz => by simp [ReservedFor, h, hz])
  next h =>
    replace h : opcodeOf w = 2#8 := BitVec.eq_of_toNat_eq h
    exact answers_ifZero (fun hz => ⟨h, hz, rfl⟩) (fun hz => by simp [ReservedFor, h, hz])
  next h => exact ⟨BitVec.eq_of_toNat_eq h, rfl, rfl, rfl⟩
  next h =>
    replace h : opcodeOf w = 4#8 := BitVec.eq_of_toNat_eq h
    exact answers_ifZero (fun hz => ⟨h, hz, rfl⟩) (fun hz => by simp [ReservedFor, h, hz])
  next h =>
    replace h : opcodeOf w = 5#8 := BitVec.eq_of_toNat_eq h
    exact answers_ifZero (fun hz => ⟨h, hz, rfl⟩) (fun hz => by simp [ReservedFor, h, hz])
  next h =>
    replace h : opcodeOf w = 6#8 := BitVec.eq_of_toNat_eq h
    exact answers_ifZero (fun hz => ⟨h, hz, rfl⟩) (fun hz => by simp [ReservedFor, h, hz])
  next h =>
    replace h : opcodeOf w = 7#8 := BitVec.eq_of_toNat_eq h
    by_cases hz : zeroV w = 0#22
    · by_cases hl : levelField w = 3#2
      · simp [hz, hl, Answers, ReservedFor, h]
      · simp [hz, hl, Answers, Spells, h]
    · simp [hz, Answers, ReservedFor, h]
  next =>
    simp only [imp_false] at *
    simp only [Answers, ReservedFor]
    omega

/-- A word decodes to a command exactly when its fields spell it. -/
theorem decode_eq_ok_iff {i : Instr} : decode w = .ok i ↔ Spells w i := by
  constructor
  · intro h
    simpa [h, Answers] using answers_decode w
  · intro h
    cases i with
    | init => obtain ⟨hop, hz⟩ := h; simp [decode, hop, hz, ifZero]
    | sendByte v => obtain ⟨hop, hz, rfl⟩ := h; simp [decode, hop, hz, ifZero]
    | writeColor r g b => obtain ⟨hop, rfl, rfl, rfl⟩ := h; simp [decode, hop]
    | writeHue hue => obtain ⟨hop, hz, rfl⟩ := h; simp [decode, hop, hz, ifZero]
    | sendStream len => obtain ⟨hop, hz, rfl⟩ := h; simp [decode, hop, hz, ifZero]
    | clear n => obtain ⟨hop, hz, rfl⟩ := h; simp [decode, hop, hz, ifZero]
    | setBright level => obtain ⟨hop, hz, rfl, hl⟩ := h; simp [decode, hop, hz, hl]

/-- A word is reserved for a reason exactly when its fields give that reason. -/
theorem decode_eq_error_iff {why : Reserved} : decode w = .error why ↔ ReservedFor w why := by
  constructor
  · intro h
    simpa [h, Answers] using answers_decode w
  · intro h
    cases why with
    | opcode =>
      simp only [ReservedFor] at h
      unfold decode
      split
      case h_8 => rfl
      all_goals omega
    | mustBeZero =>
      obtain ⟨hop, hz⟩ | ⟨hop, hz⟩ | ⟨hop, hz⟩ | ⟨hop, hz⟩ | ⟨hop, hz⟩ | ⟨hop, hz⟩ := h
      all_goals simp [decode, hop, hz, ifZero]
    | level => obtain ⟨hop, hz, hl⟩ := h; simp [decode, hop, hz, hl]

/-- The one word that is reserved for its level. -/
theorem reservedFor_level_iff : ReservedFor w .level ↔ w = 0x07000003#32 := by
  constructor
  · intro h
    obtain ⟨hmask, hl⟩ := (formatV_iff w 7).1 h
    have hhigh : w.toNat / 2 ^ 2 * 2 ^ 2 = 0x07000000 := by
      rw [← toNat_and_high w 0xFFFFFFFC#32 2 rfl, hmask]
      rfl
    have hlow : w.toNat / 2 ^ 0 % 2 ^ 2 = 3 := by
      rw [← toNat_extract_eq]
      exact congrArg BitVec.toNat hl
    apply BitVec.eq_of_toNat_eq
    show w.toNat = 0x07000003
    omega
  · rintro rfl
    exact ⟨rfl, rfl, rfl⟩

/-- Settles O4: under its row's mask a word keeps exactly the opcode and the must-be-zero bits, and the decoder reads
these and the operands. -/
theorem opcodeMapDecides : Obligations.OpcodeMapDecides := fun w =>
  ⟨decode_eq_ok_iff.trans (formatN_iff w 1),
    fun _ => decode_eq_ok_iff.trans (formatB_iff w 2),
    fun _ _ _ => decode_eq_ok_iff.trans (and_congr_left' (formatC_iff w 3)),
    fun _ => decode_eq_ok_iff.trans (formatB_iff w 4),
    fun _ => decode_eq_ok_iff.trans (formatL_iff w 5),
    fun _ => decode_eq_ok_iff.trans (formatL_iff w 6),
    fun _ => decode_eq_ok_iff.trans (formatV_iff w 7),
    decode_eq_error_iff.trans (formatV_iff w 7)⟩

end Sys2Proof

namespace Sys2Proof.Machine

/-- Acceptance of a reserved word (R79). -/
theorem accept_error {w : CmdWord} {why : Reserved} (h : decode w = .error why) (s : State) :
    accept w s = .refused .reservedCommand := by
  simp only [accept, h]

/-- The tick in which an idle block is offered a reserved word. -/
theorem step_reserved {s : State} {hold : Bool} {w : CmdWord} {why : Reserved} (ht : s.ticksNext false hold)
    (hp : s.ph = .idle) (ho : s.offer = some w) (hw : decode w = .error why) :
    step s = .refused .reservedCommand := by
  obtain ⟨hr, hc, hm⟩ := ht
  rw [step_tick hr hc hm, tick_accept (s := s.popMove) hp ho, accept_error hw]

/-- Settles O5: the reasons are those the fields give, and acceptance refuses whatever the decoder does. -/
theorem reservedWordsRefused : Obligations.ReservedWordsRefused :=
  ⟨fun _ => ⟨decode_eq_error_iff, decode_eq_error_iff, decode_eq_error_iff.trans reservedFor_level_iff⟩,
    fun _ _ _ _ => step_reserved⟩

end Sys2Proof.Machine
end

section
/-! PROOFS. A tick of a bit period: inside it, and its last (spec/40_bit_encoder.md rules R116 and R117). -/

namespace Sys2Proof.Machine

variable {s t : State} {hold : Bool}

/-- The state that `bit_end()` starts from in a step: its move is taken off the list, and the bit period counted out. -/
def State.bitCounted (s : State) : State := { s with moves := s.moves.tail, tcnt := 0 }

/-- A step whose tick finds the block in `TRANSMITTING` and is frozen by nothing. -/
theorem step_transmitting (ht : s.ticksNext false hold) (hp : s.ph = .transmitting) (hh : (hold && s.ie) = false) :
    step s = outcomeOf s.popMove.txTick := by
  obtain ⟨hr, hc, hm⟩ := ht
  rw [step_tick hr hc hm, tick_transmitting (s := s.popMove) hp hh]

/-- Such a step at the last tick of a bit period. -/
theorem step_lastTick (ht : s.ticksNext false hold) (hp : s.ph = .transmitting) (hh : (hold && s.ie) = false)
    (hl : s.cfg.p ≤ s.tcnt + 1) : step s = outcomeOf s.bitCounted.bitEnd := by
  rw [step_transmitting ht hp hh, txTick_last (s := s.popMove) hl]
  rfl

/-- The byte loop: a last tick after which the source gives another byte (R24). -/
theorem step_eq_loadByte {b : Byte} (hstep : step s = outcomeOf s.bitCounted.bitEnd) (hb : s.bitn.toNat ≤ 1)
    (hr : 0 < s.rem.toNat) (hn : s.bitCounted.nextByte = .ok (b, t)) : step s = .next (t.loadByte b) := by
  rw [hstep, bitEnd_next (s := s.bitCounted) hb hr hn]
  rfl

/-- Settles O11: the two branches of a tick in `TRANSMITTING`. -/
theorem tickInsideBit : Obligations.TickInsideBit := by
  intro s hold ht hp hh
  refine ⟨fun hlt => ?_, step_lastTick ht hp hh⟩
  rw [step_transmitting ht hp hh, txTick_inside (s := s.popMove) hlt]
  rfl

/-- Settles O12: each case is one of the three branches of `bit_end()`, the byte loop's with each of its sources. -/
theorem bitPeriodEnds : Obligations.BitPeriodEnds := by
  intro s hold ht hp hh hl
  have hstep := step_lastTick ht hp hh hl.ge
  refine ⟨fun hb => ?more, fun hb hr hs => ?imm, fun hb hr hs b hread => ?buf, fun hb hr hs => ?zero,
    fun hb hr => ⟨s.bitCounted.endOfBytes, ?last, ?state⟩⟩
  case more =>
    rw [hstep, bitEnd_more (s := s.bitCounted) hb]
    rfl
  case imm => exact step_eq_loadByte hstep hb hr (nextByte_imm hs)
  case buf => exact step_eq_loadByte hstep hb hr (nextByte_buf hs hread)
  case zero => exact step_eq_loadByte hstep hb hr (nextByte_zero hs)
  case last =>
    rw [hstep, bitEnd_last (s := s.bitCounted) hb hr]
    rfl
  case state =>
    rw [endOfBytes_eq]
    rfl

end Sys2Proof.Machine
end

section
/-! PROOFS. The latch period of a quiet block, and the empty frame, which is the latch alone
(spec/41_frame_transmitter.md rules R138 and R139, spec/43_string_controller.md rule R174). -/

namespace Sys2Proof.Machine

variable {s : State} {i : Instr}

/-! ### The latch period with nothing to come -/

/-- The run stays inside the latch period for as many ticks as are left of it. -/
theorem runSteps_latched {k : Nat} (hq : s.quiet) (hc : s.cfg.WellFormed) (hp : s.ph = .latched)
    (hk : s.lcnt + k < s.latchLen) : runSteps k s = some { s with lcnt := s.lcnt + k } := by
  induction k generalizing s with
  | zero => rfl
  | succ k ih =>
    have ⟨hr, _, hm⟩ := hq
    have hstep : step s = .next { s with lcnt := s.lcnt + 1 } := by
      rw [step_latched_plain hr hc hm hp, latchTick_inside (by omega)]
    have hrest : s.lcnt + 1 + k < s.latchLen := by omega
    rw [runSteps_succ hstep, ih (s := { s with lcnt := s.lcnt + 1 }) hq hc hp hrest, Nat.add_assoc,
      Nat.add_comm 1 k]

/-- After the rest of the latch period the block is idle. -/
theorem runSteps_latch_end {k : Nat} (hq : s.quiet) (hc : s.cfg.WellFormed) (hp : s.ph = .latched) (hpos : 0 < k)
    (hk : s.lcnt + k = s.latchLen) :
    runSteps k s = some (State.enterIdle { s with lcnt := 0, doLatch := false }) := by
  obtain ⟨j, rfl⟩ := Nat.exists_eq_add_of_le' hpos
  have ⟨hr, _, hm⟩ := hq
  have hinside := runSteps_latched (k := j) hq hc hp (by omega)
  have hlast := step_latched_plain (s := { s with lcnt := s.lcnt + j }) hr hc hm hp
  rw [latchTick_last (s := { s with lcnt := s.lcnt + j }) hk.ge] at hlast
  exact runSteps_add hinside (runSteps_succ hlast 0)

/-- A period of at least 281 microseconds of a running clock is not empty (R4, R6). -/
theorem pos_of_longEnough {c : Config} {k : Nat} (h : c.LongEnough k) (hf : 0 < c.fClk) : 0 < k := by
  unfold Config.LongEnough at h
  omega

/-- Neither of the two latch periods of a well-formed instance is empty (R6). -/
theorem latchLen_pos (hc : s.cfg.WellFormed) : 0 < s.latchLen := by
  obtain ⟨⟨hf, -⟩, -, ⟨hstream, hclear⟩, -⟩ := hc
  unfold State.latchLen
  split
  · exact pos_of_longEnough hclear hf
  · exact pos_of_longEnough hstream hf

/-- The block reads no byte of `BUF` while it is latched (R57). -/
theorem bufAddr_latched (hp : s.ph = .latched) (rst hold : Bool) : s.bufAddr rst hold = none := by
  simp only [State.bufAddr, hp]

/-! ### The empty frame -/

/-- The word of an empty frame is that of its command. -/
theorem decode_encode_emptyFrame (hi : i = .sendStream 0 ∨ i = .clear 0) : decode (encode i) = .ok i := by
  obtain rfl | rfl := hi
  · rfl
  · rfl

/-- The state after the acceptance of an empty frame (R138, R174): the latch alone, its length chosen by `lsel`. -/
def State.latchAlone (s : State) (lsel : Bool) : State := (s.popMove.takeOffer.unguarded true lsel).enterLatched

/-- The tick that accepts an empty frame begins the latch period of its command. -/
theorem step_emptyFrame (hc : s.cfg.WellFormed) (ho : s.offered i) (hi : i = .sendStream 0 ∨ i = .clear 0) :
    ∃ lsel, step s = .next (s.latchAlone lsel) ∧ (s.latchAlone lsel).latchLen = latchOf s.cfg i := by
  obtain ⟨hr, hp, hoe, hm, hw, -, -⟩ := ho
  have hstep : step s = exec i s.popMove.takeOffer := by
    rw [step_tick hr hc (nextMove_nil hm), tick_accept (s := s.popMove) hp hw,
      accept_ok (decode_encode_emptyFrame hi)]
  obtain rfl | rfl := hi
  · exact ⟨false, hstep.trans (exec_sendStream_zero (s := s.popMove.takeOffer) hoe), rfl⟩
  · exact ⟨true, hstep.trans (exec_clear_zero (s := s.popMove.takeOffer) hoe), rfl⟩

/-- The tick that accepts an empty frame reads no byte of `BUF` (R138). -/
theorem bufAddr_emptyFrame (ho : s.offered i) (hi : i = .sendStream 0 ∨ i = .clear 0) :
    s.bufAddr false false = none := by
  obtain ⟨-, hp, -, -, hw, -, -⟩ := ho
  have htaken : s.commandTaken false = some i := by
    simp [State.commandTaken, State.cmdReady, hp, hw, decode_encode_emptyFrame hi]
  obtain rfl | rfl := hi
  · simp [State.bufAddr, hp, htaken]
  · simp [State.bufAddr, hp, htaken]

/-- Settles O49: acceptance is one tick, which enters the latch period; the rest of the run is that period. -/
theorem emptyFrameOnlyLatches : Obligations.EmptyFrameOnlyLatches := by
  intro s i ⟨hc, hrest, _⟩ ho hi
  obtain ⟨lsel, hstep, hlen⟩ := step_emptyFrame hc ho hi
  have ⟨hr, hp, _, hm, _⟩ := ho
  have hdout : s.dout = false := (hrest (by simp [hp])).1
  have hq : (s.latchAlone lsel).quiet := ⟨hr, rfl, by simp [State.latchAlone, hm]⟩
  have hcl : (s.latchAlone lsel).cfg.WellFormed := hc
  have hstart (j : Nat) : (s.latchAlone lsel).lcnt + j = j := Nat.zero_add j
  refine ⟨bufAddr_emptyFrame ho hi, fun k hk hkl => ?inside, ?idle⟩
  case inside =>
    obtain ⟨j, rfl⟩ := Nat.exists_eq_add_of_le' hk
    have hrun := runSteps_latched (k := j) hq hcl rfl (by rw [hstart, hlen]; exact hkl)
    exact ⟨_, (runSteps_succ hstep j).trans hrun, rfl, hdout, rfl, rfl, rfl, bufAddr_latched rfl _ _⟩
  case idle =>
    have hrun := runSteps_latch_end hq hcl rfl (latchLen_pos hcl) (hstart _)
    rw [← hlen, Nat.add_comm 1, runSteps_succ hstep]
    exact ⟨_, hrun, rfl, hdout, rfl, rfl⟩

end Sys2Proof.Machine
end

section
/-! PROOFS. The Color Codec: `WRITE_COLOR` reads no brightness, a hue of phase 3 does nothing, and the hue wheel in exact
arithmetic (spec/42_color_codec.md rules R151, R155 and R156). -/

namespace Sys2Proof.Machine

variable {s : State} {hue : Byte} {bright : Level2}

/-! ### The commands on an uninitialised pin -/

/-- `WRITE_COLOR` on an uninitialised pin (R171). -/
theorem exec_writeColor_uninit (h : s.oe = false) (r g b : Byte) :
    exec (.writeColor r g b) s = .refused .notInitialised := by
  simp [exec, execWriteColor, h]

/-- `WRITE_HUE` on an uninitialised pin, at every hue (R155, R171). -/
theorem exec_writeHue_uninit (h : s.oe = false) (hue : Byte) :
    exec (.writeHue hue) s = .refused .notInitialised := by
  simp [exec, execWriteHue, h]

/-! ### Brightness and direct colours -/

/-- Sending a pixel leaves the brightness. -/
@[simp] theorem State.sendPixel_bright (s : State) (x : Pixel) : (s.sendPixel x).bright = s.bright := rfl

/-- Sending a pixel does not read the brightness. -/
theorem State.sendPixel_setBright (s : State) (x : Pixel) (level : Level2) :
    { s with bright := level }.sendPixel x = { s.sendPixel x with bright := level } := rfl

/-- Settles O17: with `OE = 1` both commands send the same pixel, with `OE = 0` both are refused. -/
theorem writeColorIgnoresBright : Obligations.WriteColorIgnoresBright := by
  refine fun s r g b level => ⟨fun h => ?initialised, fun h => ?uninitialised⟩
  case initialised =>
    refine ⟨s.sendPixel ⟨r, g, b⟩, exec_writeColor h r g b, s.sendPixel_bright _, ?_⟩
    rw [exec_writeColor (s := { s with bright := level }) h, State.sendPixel_setBright]
  case uninitialised =>
    exact ⟨exec_writeColor_uninit h r g b, exec_writeColor_uninit (s := { s with bright := level }) h r g b⟩

/-! ### The phase of a hue -/

/-- The phase of a hue as a number (R152). -/
theorem huePhase_toNat (hue : Byte) : (huePhase hue).toNat = hue.toNat / 64 := by
  have := hue.isLt
  simp only [huePhase, BitVec.extractLsb'_toNat, Nat.shiftRight_eq_div_pow]
  omega

/-- A hue that renders nothing puts no byte on the wire. -/
theorem wireBytes_writeHue_none (hx : hueRgb hue s.bright = none) : wireBytes s (.writeHue hue) = [] := by
  simp only [wireBytes, hx]

/-- Settles O19: the hues that render nothing are those of phase 3. -/
theorem huePhaseThreeDoesNothing : Obligations.HuePhaseThreeDoesNothing := by
  refine fun s hue => ⟨?phase, fun hge => ?idle⟩
  case phase =>
    have := hue.isLt
    rw [huePhase_toNat]
    omega
  case idle =>
    have hnone : hueRgb hue s.bright = none := (hueRgb_eq_none_iff hue s.bright).2 hge
    exact ⟨wireBytes_writeHue_none hnone, fun h => exec_writeHue_none h hnone, fun h => exec_writeHue_uninit h hue⟩

/-! ### The hue wheel in exact arithmetic -/

/-- No shift of six bits by a legal brightness leaves the byte (R160, R161). -/
theorem mul_two_pow_bright_lt (hb : bright ≠ 3) {k : Nat} (hk : k ≤ 63) : k * 2 ^ bright.toNat < 256 := by
  have hlevel : bright.toNat ≤ 2 := by
    have := bright.isLt
    have : bright.toNat ≠ 3 := fun h => hb (BitVec.eq_of_toNat_eq h)
    omega
  calc k * 2 ^ bright.toNat
      ≤ 63 * 2 ^ 2 := Nat.mul_le_mul hk (Nat.pow_le_pow_right Nat.two_pos hlevel)
    _ < 256 := by decide

/-- `step` is exact at a legal brightness (R160). -/
theorem hueStep_toNat (hb : bright ≠ 3) (hue : Byte) :
    (hueStep hue bright).toNat = (hue.toNat % 64) * 2 ^ bright.toNat := by
  have hlow : ((hue.extractLsb' 0 6).setWidth 8).toNat = hue.toNat % 64 := by
    simp only [BitVec.toNat_setWidth, BitVec.extractLsb'_toNat, Nat.shiftRight_zero]
    omega
  rw [hueStep, BitVec.toNat_shiftLeft, hlow, Nat.shiftLeft_eq]
  exact Nat.mod_eq_of_lt (mul_two_pow_bright_lt hb (by omega))

/-- The largest channel value is exact at a legal brightness (R159). -/
theorem hueMax_toNat (hb : bright ≠ 3) : (hueMax bright).toNat = 63 * 2 ^ bright.toNat := by
  rw [hueMax, BitVec.toNat_shiftLeft, Nat.shiftLeft_eq]
  exact Nat.mod_eq_of_lt (mul_two_pow_bright_lt hb le_rfl)

/-- `nstep` does not borrow, so `step` and it add up to the largest channel value (R156, R161). -/
theorem hueStep_add_hueNstep_toNat (hb : bright ≠ 3) (hue : Byte) :
    (hueStep hue bright).toNat + (hueNstep hue bright).toNat = 63 * 2 ^ bright.toNat := by
  have hle : hueStep hue bright ≤ hueMax bright := by
    rw [BitVec.le_def, hueStep_toNat hb, hueMax_toNat hb]
    exact Nat.mul_le_mul_right _ (by omega)
  rw [hueNstep, BitVec.toNat_sub_of_le hle, Nat.add_sub_cancel' (BitVec.le_def.1 hle), hueMax_toNat hb]

/-- The triple of phase 0 (R152): no blue. -/
theorem hueRgb_phase_zero (h : hue.toNat / 64 = 0) (bright : Level2) :
    hueRgb hue bright = some ⟨hueNstep hue bright, hueStep hue bright, 0⟩ := by
  simp only [hueRgb, huePhase_toNat, h]

/-- The triple of phase 1 (R152): no red. -/
theorem hueRgb_phase_one (h : hue.toNat / 64 = 1) (bright : Level2) :
    hueRgb hue bright = some ⟨0, hueNstep hue bright, hueStep hue bright⟩ := by
  simp only [hueRgb, huePhase_toNat, h]

/-- The triple of phase 2 (R152): no green. -/
theorem hueRgb_phase_two (h : hue.toNat / 64 = 2) (bright : Level2) :
    hueRgb hue bright = some ⟨hueStep hue bright, 0, hueNstep hue bright⟩ := by
  simp only [hueRgb, huePhase_toNat, h]

/-- Settles O32: a hue below 192 renders some triple, which its phase names. -/
theorem hueChannels : Obligations.HueChannels := by
  intro hue bright hlt hb
  have hsome : hueRgb hue bright ≠ none := fun h => absurd ((hueRgb_eq_none_iff hue bright).1 h) (by omega)
  obtain ⟨x, hx⟩ := Option.ne_none_iff_exists'.1 hsome
  exact ⟨x, hx, hueStep_add_hueNstep_toNat hb hue, hueStep_toNat hb hue,
    fun h => Option.some.inj (hx.symm.trans (hueRgb_phase_zero h bright)),
    fun h => Option.some.inj (hx.symm.trans (hueRgb_phase_one h bright)),
    fun h => Option.some.inj (hx.symm.trans (hueRgb_phase_two h bright))⟩

end Sys2Proof.Machine
end

section
/-! PROOFS. The block before `INIT`: the pad is not driven, the transmitting commands are refused, and `INIT` and
`SET_BRIGHT` are not (spec/43_string_controller.md rule R171). -/

namespace Sys2Proof.Machine

variable {s : State}

/-- The pad of an uninitialised pin is not driven (R22, R171). -/
theorem pad_uninit (h : s.oe = false) : s.pad = .z := by
  simp [State.pad, h]

/-- `SEND_BYTE` on an uninitialised pin (R171). -/
theorem exec_sendByte_uninit (h : s.oe = false) (v : Byte) :
    exec (.sendByte v) s = .refused .notInitialised := by
  simp [exec, execSendByte, h]

/-- `SEND_STREAM` on an uninitialised pin, the empty frame too (R138, R171). -/
theorem exec_sendStream_uninit (h : s.oe = false) (len : Count) :
    exec (.sendStream len) s = .refused .notInitialised := by
  simp [exec, execSendStream, h]

/-- `CLEAR` on an uninitialised pin, also of more pixels than the bound (R171, R191). -/
theorem exec_clear_uninit (h : s.oe = false) (n : Count) :
    exec (.clear n) s = .refused .notInitialised := by
  simp [exec, execClear, h]

/-- `INIT` at acceptance (R170). -/
theorem exec_init (s : State) : exec .init s = .next { s with oe := true, dout := false } := rfl

/-- `SET_BRIGHT` of a level it has, at acceptance (R158). -/
theorem exec_setBright {level : Level2} (hl : level ≠ 3) (s : State) :
    exec (.setBright level) s = .next { s with bright := level } := by
  simp only [exec, execSetBright, if_neg hl]

/-- Settles O23: each transmitting command tests `OE` before anything else, `INIT` and `SET_BRIGHT` do not test it. -/
theorem uninitialisedRefused : Obligations.UninitialisedRefused := by
  refine fun s => ⟨s.resetBlock_oe, fun h => ?uninitialised, ⟨_, exec_init s⟩,
    fun level hl => ⟨_, exec_setBright hl s⟩⟩
  case uninitialised =>
    exact ⟨pad_uninit h, exec_sendByte_uninit h, exec_writeColor_uninit h, exec_writeHue_uninit h,
      exec_sendStream_uninit h, exec_clear_uninit h⟩

end Sys2Proof.Machine
end

section
/-! PROOFS. A tick of reset from any state (spec/70_reset_and_hazards.md rules R220 and R221). -/

namespace Sys2Proof.Machine

variable {s : State} {hold : Bool}

/-- A step whose tick is one of reset, in whatever phase it finds the block (R220). -/
theorem step_reset (ht : s.ticksNext true hold) : step s = .next s.popMove.resetBlock := by
  obtain ⟨hr, hc, hm⟩ := ht
  rw [step_tick hr hc hm, tick_reset]

/-- No command is ready to be taken while `rst` is driven (R39). -/
theorem cmdReady_reset (s : State) : s.cmdReady true = false := by
  simp [State.cmdReady]

/-- Reset is idempotent: the first tick leaves `GUARD` at 0, so that the second has no saved `IE` to write back
(R221). -/
theorem resetBlock_popMove_resetBlock (s : State) :
    s.resetBlock.popMove.resetBlock = s.resetBlock.popMove := by
  have hie : s.resetBlock.popMove.resetBlock.ie = s.resetBlock.popMove.ie := by
    rw [State.resetBlock_ie, State.popMove_guard, State.resetBlock_guard, if_neg Bool.false_ne_true]
  change { s.resetBlock.popMove with ie := s.resetBlock.popMove.resetBlock.ie } = s.resetBlock.popMove
  rw [hie]

/-- Settles O9: the tick is `reset()`, whatever the phase and the other pin, and does nothing
to a block that it has reset. -/
theorem resetTick : Obligations.ResetTick := by
  refine fun s hold ht => ⟨cmdReady_reset s, ⟨_, step_reset ht, rfl⟩, fun t u hold' hst htt htu => ?again⟩
  case again =>
    obtain rfl : s.popMove.resetBlock = t := Host.Outcome.next.inj ((step_reset ht).symm.trans hst)
    have hu := Host.Outcome.next.inj ((step_reset htt).symm.trans htu)
    exact hu.symm.trans (resetBlock_popMove_resetBlock s.popMove)

end Sys2Proof.Machine
end

section
/-! PROOFS. Commands and their words are the same thing told twice (spec/30_encoding.md rules R72 to R79). -/

namespace Sys2Proof

/-- The fields of a word of format B (R73). -/
theorem fields_formatB (op v : BitVec 8) :
    opcodeOf (op ++ 0#16 ++ v) = op ∧ zeroB (op ++ 0#16 ++ v) = 0#16 ∧ byteLane0 (op ++ 0#16 ++ v) = v :=
  ⟨(BitVec.extractLsb'_append_eq_of_le (by decide)).trans BitVec.extractLsb'_append_eq_left,
    (BitVec.extractLsb'_append_eq_of_le (by decide)).trans BitVec.extractLsb'_append_eq_right,
    BitVec.extractLsb'_append_eq_right⟩

/-- The fields of a word of format C (R74). -/
theorem fields_formatC (op r g b : BitVec 8) :
    opcodeOf (op ++ r ++ g ++ b) = op ∧ byteLane2 (op ++ r ++ g ++ b) = r ∧ byteLane1 (op ++ r ++ g ++ b) = g ∧
      byteLane0 (op ++ r ++ g ++ b) = b :=
  ⟨(BitVec.extractLsb'_append_eq_of_le (by decide)).trans
      ((BitVec.extractLsb'_append_eq_of_le (by decide)).trans BitVec.extractLsb'_append_eq_left),
    (BitVec.extractLsb'_append_eq_of_le (by decide)).trans
      ((BitVec.extractLsb'_append_eq_of_le (by decide)).trans BitVec.extractLsb'_append_eq_right),
    (BitVec.extractLsb'_append_eq_of_le (by decide)).trans BitVec.extractLsb'_append_eq_right,
    BitVec.extractLsb'_append_eq_right⟩

/-- The fields of a word of format L (R75). -/
theorem fields_formatL (op : BitVec 8) (n : Count) :
    opcodeOf (op ++ 0#8 ++ n) = op ∧ byteLane2 (op ++ 0#8 ++ n) = 0#8 ∧ countField (op ++ 0#8 ++ n) = n :=
  ⟨(BitVec.extractLsb'_append_eq_of_le (by decide)).trans BitVec.extractLsb'_append_eq_left,
    (BitVec.extractLsb'_append_eq_of_le (by decide)).trans BitVec.extractLsb'_append_eq_right,
    BitVec.extractLsb'_append_eq_right⟩

/-- The fields of a word of format V (R76). -/
theorem fields_formatV (op : BitVec 8) (level : Level2) :
    opcodeOf (op ++ 0#22 ++ level) = op ∧ zeroV (op ++ 0#22 ++ level) = 0#22 ∧
      levelField (op ++ 0#22 ++ level) = level :=
  ⟨(BitVec.extractLsb'_append_eq_of_le (by decide)).trans BitVec.extractLsb'_append_eq_left,
    (BitVec.extractLsb'_append_eq_of_le (by decide)).trans BitVec.extractLsb'_append_eq_right,
    BitVec.extractLsb'_append_eq_right⟩

/-- The fields of the word of a well-formed command spell the command. -/
theorem spells_encode {i : Instr} (hi : i.wf = true) : Spells (encode i) i := by
  cases i with
  | init => exact ⟨rfl, rfl⟩
  | sendByte v =>
    obtain ⟨hop, hz, hv⟩ := fields_formatB 2 v
    exact ⟨hop, hz, hv.symm⟩
  | writeColor r g b =>
    obtain ⟨hop, hr, hg, hb⟩ := fields_formatC 3 r g b
    exact ⟨hop, hr.symm, hg.symm, hb.symm⟩
  | writeHue hue =>
    obtain ⟨hop, hz, hh⟩ := fields_formatB 4 hue
    exact ⟨hop, hz, hh.symm⟩
  | sendStream len =>
    obtain ⟨hop, hz, hn⟩ := fields_formatL 5 len
    exact ⟨hop, hz, hn.symm⟩
  | clear n =>
    obtain ⟨hop, hz, hn⟩ := fields_formatL 6 n
    exact ⟨hop, hz, hn.symm⟩
  | setBright level =>
    obtain ⟨hop, hz, hl⟩ := fields_formatV 7 level
    exact ⟨hop, hz, hl.symm, bne_iff_ne.1 hi⟩

/-- Settles O2: the decoder answers the command that the fields spell. -/
theorem decodeOfEncode : Obligations.DecodeOfEncode := fun _ hi => decode_eq_ok_iff.2 (spells_encode hi)

/-- Settles O1: each word is what the encoder writes for its command. -/
theorem specWordsDecode : Obligations.SpecWordsDecode :=
  ⟨decodeOfEncode .init rfl, decodeOfEncode (.sendByte 0xA5) rfl, decodeOfEncode (.writeColor 10 20 30) rfl,
    decodeOfEncode (.writeHue 32) rfl, decodeOfEncode (.sendStream 65535) rfl, decodeOfEncode (.clear 60) rfl,
    decodeOfEncode (.setBright 2) rfl⟩

/-! ### A word is its fields -/

variable {w : CmdWord}

/-- Two neighbouring fields of a word are one field. -/
theorem fields_join {lo m n : Nat} (w : CmdWord) :
    w.extractLsb' (lo + n) m ++ w.extractLsb' lo n = w.extractLsb' lo (m + n) :=
  BitVec.extractLsb'_append_extractLsb'_eq_extractLsb' rfl

/-- A word of format N, from its opcode (R72). -/
theorem layoutN {op : BitVec 8} (hop : opcodeOf w = op) (hz : operandField w = 0#24) : op ++ 0#24 = w := by
  rw [← hop, ← hz]
  exact BitVec.extractLsb'_append_extractLsb'

/-- A word of format B, from its opcode and operand (R73). -/
theorem layoutB {op : BitVec 8} (hop : opcodeOf w = op) (hz : zeroB w = 0#16) : op ++ 0#16 ++ byteLane0 w = w := by
  rw [← hop, ← hz]
  calc opcodeOf w ++ zeroB w ++ byteLane0 w
      = w.extractLsb' 8 24 ++ byteLane0 w := congrArg (· ++ byteLane0 w) (fields_join w)
    _ = w := BitVec.extractLsb'_append_extractLsb'

/-- A word of format C, from its opcode and operands (R74). -/
theorem layoutC {op : BitVec 8} (hop : opcodeOf w = op) :
    op ++ byteLane2 w ++ byteLane1 w ++ byteLane0 w = w := by
  rw [← hop]
  calc opcodeOf w ++ byteLane2 w ++ byteLane1 w ++ byteLane0 w
      = w.extractLsb' 16 16 ++ byteLane1 w ++ byteLane0 w :=
        congrArg (· ++ byteLane1 w ++ byteLane0 w) (fields_join w)
    _ = w.extractLsb' 8 24 ++ byteLane0 w := congrArg (· ++ byteLane0 w) (fields_join w)
    _ = w := BitVec.extractLsb'_append_extractLsb'

/-- A word of format L, from its opcode and operand (R75). -/
theorem layoutL {op : BitVec 8} (hop : opcodeOf w = op) (hz : byteLane2 w = 0#8) : op ++ 0#8 ++ countField w = w := by
  rw [← hop, ← hz]
  calc opcodeOf w ++ byteLane2 w ++ countField w
      = w.extractLsb' 16 16 ++ countField w := congrArg (· ++ countField w) (fields_join w)
    _ = w := BitVec.extractLsb'_append_extractLsb'

/-- A word of format V, from its opcode and level (R76). -/
theorem layoutV {op : BitVec 8} (hop : opcodeOf w = op) (hz : zeroV w = 0#22) : op ++ 0#22 ++ levelField w = w := by
  rw [← hop, ← hz]
  calc opcodeOf w ++ zeroV w ++ levelField w
      = w.extractLsb' 2 30 ++ levelField w := congrArg (· ++ levelField w) (fields_join w)
    _ = w := BitVec.extractLsb'_append_extractLsb'

/-- The command that the fields of a word spell is well formed, and its word is the word itself. -/
theorem encode_of_spells {i : Instr} (h : Spells w i) : i.wf = true ∧ encode i = w := by
  cases i with
  | init =>
    obtain ⟨hop, hz⟩ := h
    exact ⟨rfl, layoutN hop hz⟩
  | sendByte v =>
    obtain ⟨hop, hz, rfl⟩ := h
    exact ⟨rfl, layoutB hop hz⟩
  | writeColor r g b =>
    obtain ⟨hop, rfl, rfl, rfl⟩ := h
    exact ⟨rfl, layoutC hop⟩
  | writeHue hue =>
    obtain ⟨hop, hz, rfl⟩ := h
    exact ⟨rfl, layoutB hop hz⟩
  | sendStream len =>
    obtain ⟨hop, hz, rfl⟩ := h
    exact ⟨rfl, layoutL hop hz⟩
  | clear n =>
    obtain ⟨hop, hz, rfl⟩ := h
    exact ⟨rfl, layoutL hop hz⟩
  | setBright level =>
    obtain ⟨hop, hz, rfl, hl⟩ := h
    exact ⟨bne_iff_ne.2 hl, layoutV hop hz⟩

/-- Settles O3: the fields that the decoder reads are the whole word. -/
theorem encodeOfDecode : Obligations.EncodeOfDecode := fun _ _ h => encode_of_spells (decode_eq_ok_iff.1 h)

end Sys2Proof
end

section
/-! PROOFS. What a step is, kind by kind, and what acceptance does to an idle block (spec/40_bit_encoder.md rules R118
and R119, spec/41_frame_transmitter.md rule R139, spec/43_string_controller.md rule R181). -/

namespace Sys2Proof.Machine

variable {s t : State} {hold : Bool} {w : CmdWord} {i : Instr}

/-! ### The kinds of tick -/

/-- A step whose tick finds the block idle and nothing offered. -/
theorem step_idle (ht : s.ticksNext false hold) (hp : s.ph = .idle) (ho : s.offer = none) :
    step s = .next s.popMove := by
  obtain ⟨hr, hc, hm⟩ := ht
  rw [step_tick hr hc hm, tick_idle (s := s.popMove) hp ho]

/-- A step whose tick accepts a word that decodes. -/
theorem step_command (ht : s.ticksNext false hold) (hp : s.ph = .idle) (ho : s.offer = some w)
    (hd : decode w = .ok i) : step s = exec i s.popMove.takeOffer := by
  obtain ⟨hr, hc, hm⟩ := ht
  rw [step_tick hr hc hm, tick_accept (s := s.popMove) hp ho, accept_ok hd]

/-- A step whose tick is frozen by an effective hold. -/
theorem step_held (ht : s.ticksNext false hold) (hp : s.ph ≠ .idle) (hh : (hold && s.ie) = true) :
    step s = .next s.popMove.heldTick := by
  obtain ⟨hr, hc, hm⟩ := ht
  rw [step_tick hr hc hm, tick_held (s := s.popMove) hp hh]

/-- A step whose tick finds the block in `LATCHED` and is frozen by nothing. -/
theorem step_latched (ht : s.ticksNext false hold) (hp : s.ph = .latched) (hh : (hold && s.ie) = false) :
    step s = .next s.popMove.latchTick := by
  obtain ⟨hr, hc, hm⟩ := ht
  rw [step_tick hr hc hm, tick_latched (s := s.popMove) hp hh]

/-- Settles O6: acceptance is the only thing such a tick does. -/
theorem stepRunsDecodedCommand : Obligations.StepRunsDecodedCommand :=
  fun _ _ _ _ ht hp ho hd => step_command ht hp ho hd

/-- The word that `withFetchWord` takes from the number of a word is the word. -/
theorem withFetchWord_toNat (s : State) (w : CmdWord) : s.withFetchWord 32 w.toNat = s.present w := by
  rw [State.withFetchWord, Nat.mod_eq_of_lt w.isLt, BitVec.ofNat_toNat, BitVec.setWidth_eq]

/-- Taking the presented word off the port of an idle block leaves the block with nothing offered. -/
theorem takeOffer_popMove_present (hp : s.ph = .idle) (w : CmdWord) :
    (s.present w).popMove.takeOffer = { s with offer := none } := by
  simp only [State.present, State.popMove, State.takeOffer, List.tail_cons, ← hp]

/-- Settles O7: the presented word is the one that the next tick accepts. -/
theorem presentedWordRuns : Obligations.PresentedWordRuns := by
  intro s i hr hc hp hi
  have ht : (s.present (encode i)).ticksNext false false := ⟨hr, hc, rfl⟩
  rw [withFetchWord_toNat, step_command ht rfl rfl (decodeOfEncode i hi), takeOffer_popMove_present hp]

/-! ### Holds -/

/-- Nothing freezes a tick of a block that is idle or whose `IE` is 0 (R119). -/
theorem tick_hold_ignored (h : s.ie = false ∨ s.ph = .idle) (hold : Bool) :
    tick false hold s = tick false false s := by
  unfold tick
  obtain hie | hp := h
  · simp only [hie, Bool.and_false]
  · simp only [hp]

/-- What a held tick and a plain tick do alike, the steps with one of them to come do alike. -/
theorem step_congr_tick {hold' : Bool} {ms : List Move}
    (h : tick false hold { s with moves := ms } = tick false hold' { s with moves := ms }) :
    step { s with moves := .tick false hold :: ms } = step { s with moves := .tick false hold' :: ms } := by
  simp only [step, runNext]
  exact congrArg (fun o => if s.refused then _ else if s.cfg.WellFormed then o else _) h

/-- Settles O10: an effective hold is the branch of the tick that freezes it; elsewhere the pin is not read. -/
theorem holdFreezes : Obligations.HoldFreezes := by
  refine ⟨fun s ht hie hp => ?transmitting, fun s ht hie hp => ?latched, fun s ms h => ?ignored⟩
  case transmitting =>
    rw [step_held ht (by simp [hp]) (by simp [hie])]
    simp [State.heldTick, State.popMove, hp]
  case latched =>
    rw [step_held ht (by simp [hp]) (by simp [hie])]
    simp [State.heldTick, State.popMove, hp]
  case ignored => exact step_congr_tick (tick_hold_ignored (s := { s with moves := ms }) h true)

/-- Settles O13: the two branches of a tick in `LATCHED`. -/
theorem latchTickCounts : Obligations.LatchTickCounts := by
  refine fun s hold ht hp hh => ⟨fun hlt => ?inside, fun hle => ?last⟩
  case inside => rw [step_latched ht hp hh, latchTick_inside (s := s.popMove) hlt]; rfl
  case last => rw [step_latched ht hp hh, latchTick_last (s := s.popMove) hle]; rfl

end Sys2Proof.Machine
end

section
/-! PROOFS. The commands at acceptance: what each one does (spec/40_bit_encoder.md R114, spec/41_frame_transmitter.md
R130 and R138, spec/42_color_codec.md R150, R152 and R158, spec/43_string_controller.md R170 and R172), and what it
leaves unchanged. -/

namespace Sys2Proof.Machine

variable {s t : State} {i : Instr}

/-! ### The whole effect of each command -/

/-- The pad of an initialised pin follows `DOUT` (R22). -/
theorem pad_init (h : s.oe = true) : s.pad = if s.dout then .high else .low := by simp only [State.pad, if_pos h]

/-- Settles O14: an idle block that meets the invariant has `DOUT = 0` already. -/
theorem initCompletes : Obligations.InitCompletes := by
  refine ⟨fun s => ⟨_, exec_init s, rfl, pad_init rfl⟩, fun s ⟨_, hrest, _⟩ hp hoe => ?_⟩
  obtain ⟨hdout, -, -⟩ := hrest (by simp [hp])
  simp only [exec_init, ← hoe, ← hdout]

/-- Settles O15: `SEND_BYTE` is the shared start of a transmission with nothing left in its source. -/
theorem sendByteCompletes : Obligations.SendByteCompletes := fun _ v h => exec_sendByte h v

/-- Settles O16: the two wire orders of a pixel. -/
theorem writeColorCompletes : Obligations.WriteColorCompletes := by
  refine fun s r g b h => ⟨fun ho => ?grb, fun ho => ?rgb⟩
  case grb => rw [exec_writeColor h, sendPixel_eq, ho]; rfl
  case rgb => rw [exec_writeColor h, sendPixel_eq, ho]; rfl

/-- Settles O20: the stream with bytes and the empty stream are the two branches of the command. -/
theorem sendStreamCompletes : Obligations.SendStreamCompletes :=
  ⟨fun s _ h hl => ⟨s.buf.get 0, bufRead_zero s.buf, exec_sendStream h hl⟩, fun _ h => exec_sendStream_zero h⟩

/-- `3 * n - 1` does not leave 16 bits up to the largest bound of `CLEAR` (R8, R172). -/
theorem clearRem_toNat {n : Count} (hn : n ≠ 0) (hm : n.toNat ≤ 21845) : (clearRem n).toNat = 3 * n.toNat - 1 := by
  have hpos : n.toNat ≠ 0 := fun h => hn (BitVec.eq_of_toNat_eq h)
  have hone : (1 : Count).toNat = 1 := rfl
  have hthree : (3 : Count).toNat = 3 := rfl
  rw [clearRem, BitVec.toNat_sub, BitVec.toNat_mul, hone, hthree]
  omega

/-- `CLEAR` above the bound (R176). -/
theorem exec_clear_tooLong {n : Count} (h : s.oe = true) (hn : s.cfg.maxPixels < n.toNat) :
    exec (.clear n) s = .refused .clearTooLong := by
  simp only [exec, execClear, if_pos h, if_pos hn]

/-- Settles O21: the three branches of the command on an initialised pin. -/
theorem clearCompletes : Obligations.ClearCompletes :=
  ⟨fun _ _ h hn hm hb => ⟨_, exec_clear h hn hm, clearRem_toNat hn (hm.trans hb), rfl⟩,
    fun _ h => exec_clear_zero h, fun _ _ h hm => exec_clear_tooLong h hm⟩

/-- `SET_BRIGHT 3` (R158). -/
theorem exec_setBright_three (s : State) : exec (.setBright 3) s = .refused .reservedCommand := rfl

/-- Settles O22: the two branches of the command. -/
theorem setBrightCompletes : Obligations.SetBrightCompletes :=
  ⟨fun s _ hl => exec_setBright hl s, exec_setBright_three⟩

/-! ### What a command leaves unchanged -/

/-- No command touches the parameters, the ghost bits, `BUF`, the command port or what is to come. -/
theorem exec_frame (h : exec i s = .next t) :
    t = { s with
      ph := t.ph, dout := t.dout, oe := t.oe, sr := t.sr, srck := t.srck, imm := t.imm, idx := t.idx, rem := t.rem
      bitn := t.bitn, tcnt := t.tcnt, lcnt := t.lcnt, bright := t.bright, guard := t.guard, doLatch := t.doLatch
      lsel := t.lsel, savedIe := t.savedIe, ie := t.ie, borrowed := t.borrowed } := by
  obtain ⟨-, rfl⟩ | ⟨_, -, -, rfl⟩ | ⟨_, -, -, -, rfl⟩ | ⟨-, -, _, _, _, rfl⟩ | ⟨-, _, -, rfl⟩ | ⟨-, _, -, -, rfl⟩ |
    ⟨-, _, -, -, -, rfl⟩ := exec_cases h <;> rfl

/-- Every byte of `BUF` is as it was after a command. -/
theorem exec_bufRead (h : exec i s = .next t) (a : Count) : bufRead t.buf a = bufRead s.buf a := by
  rw [exec_frame h]

/-- What a sender of one byte or of one pixel can do: nothing (R155), or start without guard and latch. -/
theorem exec_unguarded_cases (hi : (∃ v, i = .sendByte v) ∨ (∃ r g b, i = .writeColor r g b) ∨ ∃ hue, i = .writeHue hue)
    (h : exec i s = .next t) : t = s ∨ ∃ imm rem b, t = ((s.loadImm imm rem).unguarded false false).startTx b := by
  obtain ⟨rfl, -⟩ | ⟨_, rfl, -⟩ | ⟨_, -, -, -, ht⟩ | ⟨-, -, ht⟩ | ⟨-, _, ⟨rfl, -⟩ | ⟨rfl, -⟩, -⟩ | ⟨-, _, rfl, -⟩ |
    ⟨-, _, rfl, -⟩ := exec_cases h
  case inr.inr.inl => exact .inl ht
  case inr.inr.inr.inl => exact .inr ht
  all_goals simp at hi

/-- What a guarded sender can do: begin the latch alone, or take the guard and start its source. -/
theorem exec_guarded_cases (hi : (∃ len, i = .sendStream len) ∨ ∃ n, i = .clear n) (h : exec i s = .next t) :
    (∃ ls, t = (s.unguarded true ls).enterLatched) ∨
    (∃ len, i = .sendStream len ∧ t = ((s.takeGuard false).loadBuf len).startTx (s.buf.get 0)) ∨
    (∃ n, i = .clear n ∧ t = ((s.takeGuard true).loadZero (clearRem n)).startTx 0) := by
  obtain ⟨rfl, -⟩ | ⟨_, rfl, -⟩ | ⟨_, rfl, -⟩ | ⟨-, ⟨_, rfl⟩ | ⟨_, _, _, rfl⟩ | ⟨_, rfl, -⟩, -⟩ | ⟨-, ls, -, ht⟩ |
    ⟨-, len, hl, -, ht⟩ | ⟨-, n, hn, -, -, ht⟩ := exec_cases h
  case inr.inr.inr.inr.inl => exact .inl ⟨ls, ht⟩
  case inr.inr.inr.inr.inr.inl => exact .inr (.inl ⟨len, hl, ht⟩)
  case inr.inr.inr.inr.inr.inr => exact .inr (.inr ⟨n, hn, ht⟩)
  all_goals simp at hi

/-- Settles O25: they do nothing, or start from the same update. -/
theorem unguardedSendersFrame : Obligations.UnguardedSendersFrame := by
  refine fun s t i hi h => ⟨?_, exec_bufRead h⟩
  obtain rfl | ⟨_, _, _, rfl⟩ := exec_unguarded_cases hi h
  · rfl
  · rfl

/-- Settles O26: they begin the latch alone, or take the guard and load their source, which for `CLEAR` is not `BUF`. -/
theorem guardedSendersFrame : Obligations.GuardedSendersFrame := by
  intro s t i hi h
  rw [← and_assoc]
  refine ⟨?_, exec_bufRead h⟩
  obtain ⟨_, rfl⟩ | ⟨_, rfl, rfl⟩ | ⟨_, -, rfl⟩ := exec_guarded_cases hi h
  · exact ⟨rfl, fun _ => ⟨rfl, rfl⟩⟩
  · exact ⟨rfl, fun ⟨_, hn⟩ => nomatch hn⟩
  · exact ⟨rfl, fun _ => ⟨rfl, rfl⟩⟩

/-- Settles O27: `INIT` and `SET_BRIGHT` are an update each. -/
theorem silentCommandsFrame : Obligations.SilentCommandsFrame := by
  refine ⟨fun s t h => ⟨?init, exec_bufRead h⟩, fun s t level h => ⟨?setBright, exec_bufRead h⟩⟩
  case init => cases h; rfl
  case setBright =>
    by_cases hl : level = 3
    · subst hl; cases h
    · rw [exec_setBright hl] at h
      cases h
      rfl

/-! ### The first byte -/

/-- A buffer of at least one byte, its first byte apart. -/
theorem bufBytes_eq_cons (m : Memory) {len : Nat} (h : len ≠ 0) :
    bufBytes m len = m.get 0 :: (List.range (len - 1)).map (fun j => m.get (1 + j)) := by
  obtain ⟨n, rfl⟩ := Nat.exists_eq_succ_of_ne_zero h
  simp [bufBytes, List.range_succ_eq_map, Nat.add_comm]

/-- A count is positive as a number when it is not 0. -/
theorem count_pos_iff {n : Count} : 0 < n.toNat ↔ n ≠ 0 :=
  Nat.pos_iff_ne_zero.trans (not_congr ⟨fun h => BitVec.eq_of_toNat_eq h, fun h => h ▸ rfl⟩)

/-- A count that is not positive is 0. -/
theorem count_eq_zero {n : Count} (h : ¬ 0 < n.toNat) : n = 0 := not_not.1 (mt count_pos_iff.2 h)

/-- The bytes of a stream, its first byte apart. -/
theorem wireBytes_sendStream (s : State) {len : Count} (h : len ≠ 0) :
    wireBytes s (.sendStream len) = s.buf.get 0 :: (List.range (len.toNat - 1)).map (fun j => s.buf.get (1 + j)) :=
  bufBytes_eq_cons s.buf (count_pos_iff.2 h).ne'

/-- The bytes of a clear, its first byte apart. -/
theorem wireBytes_clear (s : State) {n : Count} (h : n ≠ 0) :
    wireBytes s (.clear n) = 0 :: List.replicate (3 * n.toNat - 1) 0 := by
  have hpos := count_pos_iff.2 h
  rw [← List.replicate_succ, Nat.sub_add_cancel (by omega)]
  rfl

/-- The bytes of a hue that renders. -/
theorem wireBytes_writeHue {hue : Byte} {x : Pixel} (hx : hueRgb hue s.bright = some x) :
    wireBytes s (.writeHue hue) = (wire3 s.cfg.wireOrder x).toList := by
  simp only [wireBytes, hx]

/-- Every command but `INIT` and `SET_BRIGHT` answers a next state on an initialised pin only (R171). -/
theorem oe_of_exec (h : exec i s = .next t) (hi : i ≠ .init) (hl : ∀ level, i ≠ .setBright level) : s.oe = true := by
  obtain ⟨rfl, -⟩ | ⟨level, rfl, -⟩ | ⟨_, -, hoe, -⟩ | ⟨hoe, -⟩ | ⟨hoe, -⟩ | ⟨hoe, -⟩ | ⟨hoe, -⟩ := exec_cases h
  · exact absurd rfl hi
  · exact absurd rfl (hl level)
  all_goals exact hoe

/-- `CLEAR` answers a next state up to the bound only (R176). -/
theorem le_maxPixels_of_exec {n : Count} (h : exec (.clear n) s = .next t) : n.toNat ≤ s.cfg.maxPixels := by
  by_contra hm
  rw [exec_clear_tooLong (oe_of_exec h nofun nofun) (by omega)] at h
  cases h

/-- What a command leaves in the pulse registers when it has started the bytes `bs`, or has no byte to send. -/
def State.started (t : State) (ph : Phase) (bs : List Byte) : Prop :=
  match bs with
  | b :: _ => t.sr = b ∧ t.bitn = 8 ∧ t.tcnt = 0 ∧ t.dout = true ∧ t.ph = .transmitting
  | [] => t.ph = ph

theorem started_startTx (s : State) (ph : Phase) (b : Byte) (bs : List Byte) : (s.startTx b).started ph (b :: bs) :=
  ⟨rfl, rfl, rfl, rfl, rfl⟩

/-- Settles O24: command by command, the byte that it starts is the first of those it sends. -/
theorem firstByteLoaded : Obligations.FirstByteLoaded := by
  intro s t i h
  change t.started _ (wireBytes s i)
  cases i with
  | init => cases h; rfl
  | setBright level =>
    obtain ⟨ht, -⟩ := silentCommandsFrame.2 s t level h
    rw [ht]
    rfl
  | sendByte v =>
    rw [exec_sendByte (oe_of_exec h nofun nofun)] at h
    cases h
    exact started_startTx _ _ _ _
  | writeColor r g b =>
    rw [exec_writeColor (oe_of_exec h nofun nofun)] at h
    cases h
    exact started_startTx _ _ _ _
  | writeHue hue =>
    have hoe := oe_of_exec h nofun nofun
    cases hx : hueRgb hue s.bright with
    | none =>
      rw [exec_writeHue_none hoe hx] at h
      cases h
      rw [wireBytes_writeHue_none hx]
      rfl
    | some x =>
      rw [exec_writeHue hoe hx] at h
      cases h
      rw [wireBytes_writeHue hx]
      exact started_startTx _ _ _ _
  | sendStream len =>
    have hoe := oe_of_exec h nofun nofun
    by_cases hl : len = 0
    · subst hl
      rw [exec_sendStream_zero hoe] at h
      cases h
      rfl
    · rw [exec_sendStream hoe hl] at h
      cases h
      rw [wireBytes_sendStream s hl]
      exact started_startTx _ _ _ _
  | clear n =>
    have hoe := oe_of_exec h nofun nofun
    by_cases hn : n = 0
    · subst hn
      rw [exec_clear_zero hoe] at h
      cases h
      rfl
    · rw [exec_clear hoe hn (le_maxPixels_of_exec h)] at h
      cases h
      rw [wireBytes_clear s hn]
      exact started_startTx _ _ _ _

end Sys2Proof.Machine
end

section
/-! PROOFS. `WRITE_HUE` and the hue wheel (spec/42_color_codec.md rules R152, R153 and R157). -/

namespace Sys2Proof.Machine

variable {hue hue' : Byte} {bright : Level2}

/-- `nstep` is exact at a legal brightness (R161). -/
theorem hueNstep_toNat (hb : bright ≠ 3) (hue : Byte) :
    (hueNstep hue bright).toNat = (63 - hue.toNat % 64) * 2 ^ bright.toNat := by
  have := hueStep_add_hueNstep_toNat hb hue
  rw [hueStep_toNat hb] at this
  rw [Nat.sub_mul]
  omega

/-- A hue below 192 renders a pixel (R155). -/
theorem hueRgb_some (h : hue.toNat < 192) (bright : Level2) : ∃ x, hueRgb hue bright = some x :=
  Option.ne_none_iff_exists'.1 fun hn => absurd ((hueRgb_eq_none_iff hue bright).1 hn) (by omega)

/-- Settles O18: the triple is that of the hue wheel, and both commands send it. -/
theorem writeHueCompletes : Obligations.WriteHueCompletes := by
  intro s hue hoe hb hlt
  obtain ⟨⟨r, g, b⟩, hx, -, -, h0, h1, h2⟩ := hueChannels hue s.bright hlt hb
  have hnstep := (hueNstep_toNat hb hue).trans (Nat.sub_mul _ _ _)
  refine ⟨r, g, b, _, exec_writeHue hoe hx, exec_writeColor hoe r g b, fun hp => ?_, fun hp => ?_, fun hp => ?_⟩
  · cases h0 hp
    exact ⟨hnstep, hueStep_toNat hb hue, rfl⟩
  · cases h1 hp
    exact ⟨rfl, hnstep, hueStep_toNat hb hue⟩
  · cases h2 hp
    exact ⟨hueStep_toNat hb hue, rfl, hnstep⟩

/-- Settles O34: the pixel depends on the hue and the brightness, its bytes in addition on the wire order. -/
theorem writeHueIsPure : Obligations.WriteHueIsPure := by
  intro s s' hue hoe hoe' hlt hb ho
  obtain ⟨x, hx⟩ := hueRgb_some hlt s.bright
  refine ⟨_, _, exec_writeHue hoe hx, exec_writeHue hoe' (hb ▸ hx), ?_⟩
  simp [sendPixel_eq, ho]

/-! ### Equal colours -/

/-- Two multiples of the scale of a level are equal as channels exactly when the multipliers are. -/
theorem channel_eq_iff {a b : Byte} {x y : Nat} (ha : a.toNat = x * 2 ^ bright.toNat)
    (hb : b.toNat = y * 2 ^ bright.toNat) : a = b ↔ x = y := by
  rw [BitVec.toNat_eq, ha, hb, Nat.mul_left_inj (Nat.two_pow_pos _).ne']

/-- 0 is a multiple of the scale of every level. -/
theorem zero_channel (bright : Level2) : (0 : Byte).toNat = 0 * 2 ^ bright.toNat := (Nat.zero_mul _).symm

/-- The first hue of a phase has `step` 0 and the whole level in `nstep`. -/
theorem hueStep_phaseStart (hb : bright ≠ 3) (h : hue.toNat % 64 = 0) :
    hueStep hue bright = 0 ∧ hueNstep hue bright = hueMax bright :=
  ⟨(channel_eq_iff (hueStep_toNat hb hue) (zero_channel bright)).2 h,
    (channel_eq_iff (hueNstep_toNat hb hue) (hueMax_toNat hb)).2 (by omega)⟩

/-- The last hue of a phase has `nstep` 0 and the whole level in `step`. -/
theorem hueStep_phaseEnd (hb : bright ≠ 3) (h : hue.toNat % 64 = 63) :
    hueStep hue bright = hueMax bright ∧ hueNstep hue bright = 0 :=
  ⟨(channel_eq_iff (hueStep_toNat hb hue) (hueMax_toNat hb)).2 h,
    (channel_eq_iff (hueNstep_toNat hb hue) (zero_channel bright)).2 (by omega)⟩

/-- The colours at the ends of the three phases (R157, conflict C2). -/
theorem hueRgb_boundaries (hb : bright ≠ 3) :
    hueRgb 63 bright = some ⟨0, hueMax bright, 0⟩ ∧ hueRgb 64 bright = some ⟨0, hueMax bright, 0⟩ ∧
    hueRgb 127 bright = some ⟨0, 0, hueMax bright⟩ ∧ hueRgb 128 bright = some ⟨0, 0, hueMax bright⟩ ∧
    hueRgb 191 bright = some ⟨hueMax bright, 0, 0⟩ ∧ hueRgb 0 bright = some ⟨hueMax bright, 0, 0⟩ := by
  have hstart {hue : Byte} := hueStep_phaseStart (hue := hue) hb
  have hend {hue : Byte} := hueStep_phaseEnd (hue := hue) hb
  refine ⟨?_, ?_, ?_, ?_, ?_, ?_⟩
  · rw [hueRgb_phase_zero rfl, (hend rfl).1, (hend rfl).2]
  · rw [hueRgb_phase_one rfl, (hstart rfl).1, (hstart rfl).2]
  · rw [hueRgb_phase_one rfl, (hend rfl).1, (hend rfl).2]
  · rw [hueRgb_phase_two rfl, (hstart rfl).1, (hstart rfl).2]
  · rw [hueRgb_phase_two rfl, (hend rfl).1, (hend rfl).2]
  · rw [hueRgb_phase_zero rfl, (hstart rfl).1, (hstart rfl).2]

/-- The place in its phase of the hue after a hue that does not end one. -/
theorem hue_add_one_mod (h : hue.toNat % 64 < 63) : (hue + 1).toNat % 64 = hue.toNat % 64 + 1 := by
  have hone : (1 : Byte).toNat = 1 := rfl
  rw [BitVec.toNat_add, hone]
  omega

/-- Settles O33: channel by channel, by the phases of the two hues, as multiples of the scale of the level. -/
theorem hueWheelContinuous : Obligations.HueWheelContinuous := by
  refine ⟨fun _ hb => hueRgb_boundaries hb, fun hue hue' bright hb hlt hlt' => ?equal, fun hue bright hb hx => ?unit⟩
  case equal =>
    have hstep := hueStep_toNat hb
    have hnstep := hueNstep_toNat hb
    have hzero := zero_channel bright
    obtain hp | hp | hp : hue.toNat / 64 = 0 ∨ hue.toNat / 64 = 1 ∨ hue.toNat / 64 = 2 := by omega
    all_goals
      obtain hp' | hp' | hp' : hue'.toNat / 64 = 0 ∨ hue'.toNat / 64 = 1 ∨ hue'.toNat / 64 = 2 := by omega
    all_goals
      simp only [hueRgb_phase_zero, hueRgb_phase_one, hueRgb_phase_two, hp, hp', Option.some.injEq, Pixel.mk.injEq,
        channel_eq_iff (hstep _) (hstep _), channel_eq_iff (hstep _) (hnstep _),
        channel_eq_iff (hnstep _) (hstep _), channel_eq_iff (hnstep _) (hnstep _),
        channel_eq_iff (hstep _) hzero, channel_eq_iff (hnstep _) hzero,
        channel_eq_iff hzero (hstep _), channel_eq_iff hzero (hnstep _)]
      omega
  case unit =>
    have hrest : 63 - hue.toNat % 64 = 63 - (hue.toNat % 64 + 1) + 1 := by omega
    rw [hueStep_toNat hb, hueStep_toNat hb, hueNstep_toNat hb, hueNstep_toNat hb, hue_add_one_mod hx, hrest]
    exact ⟨Nat.succ_mul _ _, Nat.succ_mul _ _⟩

end Sys2Proof.Machine
end

section
/-! PROOFS. The host's moves and the steps that stop (spec/70_reset_and_hazards.md rule R245, spec/60_exceptions.md
rules R191 and R192). -/

namespace Sys2Proof.Machine

variable {s : State} {ms : List Move}

/-- A step whose move is one of the host's. -/
theorem step_host {m : Move} (h : s.hostNext m ms) : step s = runMove m { s with moves := ms } := by
  obtain ⟨hr, hc, hm⟩ := h
  exact step_move hr hc hm

/-- A byte of `BUF` is written. -/
theorem hostWriteBuf_free {i : Count} {v : Byte} {m : Memory} (hb : s.borrowed.toNat ≤ i.toNat)
    (hw : bufWrite s.buf i v = some m) : hostWriteBuf i v s = .next { s with buf := m } := by
  simp only [hostWriteBuf, if_neg (Nat.not_lt.2 hb), hw]

/-- An offer on a free port, or one that stands already. -/
theorem hostOffer_stands {w : CmdWord} (h : s.offer = none ∨ s.offer = some w) :
    hostOffer w s = .next { s with offer := some w } := by
  obtain h | h := h
  · simp only [hostOffer, h]
  · have hs : { s with offer := some w } = s := by rw [← h]
    simp only [hs, hostOffer, h, if_true]

/-- Settles O29: the write of `BUF` by what the memory says of a write, the two others by their branch. -/
theorem hostMovesTakeEffect : Obligations.HostMovesTakeEffect := by
  refine ⟨fun s ms i v h hwf hb hi => ?writeBuf, fun s ms v h hg => ?writeIe, fun s ms w h ho => ?offer⟩
  case writeBuf =>
    have hw : bufWrite s.buf i v = some (s.buf.set i.toNat v) := if_pos (Nat.lt_succ_of_le hi)
    exact ⟨_, (step_host h).trans (hostWriteBuf_free (s := { s with moves := ms }) hb hw), bufWrite_wf hwf hw,
      bufRead_bufWrite hwf hw⟩
  case writeIe =>
    rw [step_host h]
    simp only [runMove, hostWriteIe, hg, Bool.false_eq_true, if_false]
  case offer => exact (step_host h).trans (hostOffer_stands (s := { s with moves := ms }) ho)

/-- Settles O30: each move that the host does not have is the branch of its own fault. -/
theorem hostDutiesStop : Obligations.HostDutiesStop := by
  refine ⟨fun s ms i v h hb => ?borrowed, fun s ms i v h hb hi => ?noIndex, fun s ms v h hg => ?guard,
    fun s ms w v h ho hv => ?offer⟩
  case borrowed =>
    rw [step_host h]
    exact if_pos hb
  case noIndex =>
    have hw : bufWrite s.buf i v = none := if_neg (Nat.not_lt.2 hi)
    rw [step_host h]
    simp only [runMove, hostWriteBuf, if_neg (Nat.not_lt.2 hb), hw]
  case guard =>
    rw [step_host h]
    exact if_pos hg
  case offer =>
    rw [step_host h]
    simp only [runMove, hostOffer, ho, if_neg hv]

/-- A run that carries the mark `REFUSED` goes no further (R14, R30). -/
theorem step_refused (h : s.refused = true) : step s = .refused .runRefused := if_pos h

/-- Settles O31: these are the branches of a step and of instantiation that refuse. -/
theorem refusedAndIllFormedStop : Obligations.RefusedAndIllFormedStop := by
  refine ⟨fun s => step_refused, fun s hr hc => ?illFormed, fun c hc => if_neg hc, fun c hc => if_pos hc⟩
  case illFormed => simp only [step, runNext, hr, Bool.false_eq_true, if_false, if_neg hc]

end Sys2Proof.Machine
end

section
/-! PROOFS. What a step can change: every kind of step as an update, and the rules about one register of the whole
machine that follow from it (spec/10_state.md rules R22, R30, R31 and R33). -/

namespace Sys2Proof.Machine

variable {s t : State} {i : Instr} {rst hold : Bool}

/-! ### Updates of the tick's operations -/

/-- The end of a bit period changes neither the parameters, `OE`, `BRIGHT`, the control bits and the saved `IE`, nor the
ghost bits, `BUF`, the command port and what is to come. -/
theorem bitEnd_frame (h : s.bitEnd = .ok t) :
    t = { s with
      ph := t.ph, dout := t.dout, sr := t.sr, imm := t.imm, idx := t.idx, rem := t.rem, bitn := t.bitn
      lcnt := t.lcnt, guard := t.guard, ie := t.ie, borrowed := t.borrowed } := by
  obtain ⟨-, rfl⟩ | ⟨-, -, b, u, hu, rfl⟩ | ⟨-, -, rfl⟩ := bitEnd_cases h
  · rfl
  · rw [nextByte_frame hu]
    rfl
  · rw [endOfBytes_eq]

/-- A tick in `TRANSMITTING` changes in addition the counter of the bit period. -/
theorem txTick_frame (h : s.txTick = .ok t) :
    t = { s with
      ph := t.ph, dout := t.dout, sr := t.sr, imm := t.imm, idx := t.idx, rem := t.rem, bitn := t.bitn
      tcnt := t.tcnt, lcnt := t.lcnt, guard := t.guard, ie := t.ie, borrowed := t.borrowed } := by
  obtain ⟨-, rfl⟩ | ⟨-, he⟩ := txTick_cases h
  · rfl
  · rw [bitEnd_frame he]

/-- A tick in `LATCHED` changes the latch counter and, at its end, the phase. -/
theorem latchTick_frame (s : State) :
    s.latchTick = { s with
      ph := s.latchTick.ph, lcnt := s.latchTick.lcnt, doLatch := s.latchTick.doLatch
      borrowed := s.latchTick.borrowed } := by
  obtain ⟨-, h⟩ | ⟨-, h⟩ := latchTick_cases s <;> rw [h]

/-- A step is a tick, or a move of the host, which changes the port, `IE` or `BUF` alone. -/
theorem step_kinds (h : step s = .next t) :
    (∃ rst hold, s.nextMove = .tick rst hold ∧ tick rst hold s.popMove = .next t) ∨
    ((∀ rst hold, s.nextMove ≠ .tick rst hold) ∧
      t = { s with moves := t.moves, offer := t.offer, ie := t.ie, buf := t.buf }) := by
  obtain ⟨-, -, hm⟩ := step_cases h
  obtain ⟨w, hw, ⟨-, rfl⟩ | ⟨-, rfl⟩⟩ | ⟨v, hv, -, rfl⟩ | ⟨a, v, b, hb, -, -, rfl⟩ | ⟨rst, hold, ht, htick⟩ :=
    runMove_cases hm
  case inr.inr.inr => exact .inl ⟨rst, hold, ht, htick⟩
  · exact .inr ⟨by simp [hw], rfl⟩
  · exact .inr ⟨by simp [hw], rfl⟩
  · exact .inr ⟨by simp [hv], rfl⟩
  · exact .inr ⟨by simp [hb], rfl⟩

/-- A step before which a tick is to come is that tick. -/
theorem tick_of_step (ht : s.ticksNext rst hold) (h : step s = .next t) : tick rst hold s.popMove = .next t := by
  obtain ⟨hr, hc, hm⟩ := ht
  rwa [← step_tick hr hc hm]

/-! ### Registers that few steps change -/

/-- No tick changes the parameters or `BUF`, nor, once its move is off the list, what is to come (R33, R50, R132). -/
theorem tick_frame (h : tick rst hold s = .next t) : t.cfg = s.cfg ∧ t.buf = s.buf ∧ t.moves = s.moves := by
  obtain ⟨-, rfl⟩ | ⟨-, -, -, rfl⟩ | ⟨-, -, w, i, -, -, he⟩ | ⟨-, -, -, rfl⟩ | ⟨-, -, -, he⟩ | ⟨-, -, -, rfl⟩ :=
    tick_cases h
  · exact ⟨rfl, rfl, rfl⟩
  · exact ⟨rfl, rfl, rfl⟩
  · rw [exec_frame he]
    exact ⟨rfl, rfl, rfl⟩
  · exact ⟨rfl, rfl, rfl⟩
  · rw [txTick_frame he]
    exact ⟨rfl, rfl, rfl⟩
  · rw [latchTick_frame]
    exact ⟨rfl, rfl, rfl⟩

/-- Settles O28: no kind of tick writes either. -/
theorem blockNeverWritesBuf : Obligations.BlockNeverWritesBuf := by
  intro s t rst hold ht h
  obtain ⟨hcfg, hbuf, -⟩ := tick_frame (tick_of_step ht h)
  exact ⟨hbuf, hcfg, fun a => by rw [hbuf]; rfl⟩

/-- A tick changes no more of `BRIGHT` and `OE` than reset and acceptance do. -/
theorem tick_controls (h : tick rst hold s = .next t) :
    (t.bright = s.bright ∧ t.oe = s.oe) ∨ (rst = true ∧ t = s.resetBlock) ∨
    (rst = false ∧ s.ph = .idle ∧ ∃ i, s.offer = some (encode i) ∧ exec i s.takeOffer = .next t) := by
  obtain ⟨hr, rfl⟩ | ⟨-, -, -, rfl⟩ | ⟨hr, hp, w, i, ho, hd, he⟩ | ⟨-, -, -, rfl⟩ | ⟨-, -, -, he⟩ | ⟨-, -, -, rfl⟩ :=
    tick_cases h
  · exact .inr (.inl ⟨hr, rfl⟩)
  · exact .inl ⟨rfl, rfl⟩
  · obtain ⟨-, rfl⟩ := encodeOfDecode w i hd
    exact .inr (.inr ⟨hr, hp, i, ho, he⟩)
  · exact .inl ⟨rfl, rfl⟩
  · rw [txTick_frame he]
    exact .inl ⟨rfl, rfl⟩
  · rw [latchTick_frame]
    exact .inl ⟨rfl, rfl⟩

/-- What a command does to `BRIGHT` and `OE`. -/
theorem exec_controls (h : exec i s = .next t) :
    (t.bright = s.bright ∧ t.oe = s.oe) ∨ (i = .init ∧ t.bright = s.bright ∧ t.oe = true) ∨
    ∃ level, i = .setBright level ∧ level ≠ 3 ∧ t.bright = level ∧ t.oe = s.oe := by
  obtain ⟨hi, rfl⟩ | ⟨level, hi, hl, rfl⟩ | ⟨_, -, -, -, rfl⟩ | ⟨-, -, _, _, _, rfl⟩ | ⟨-, _, -, rfl⟩ |
    ⟨-, _, -, -, rfl⟩ | ⟨-, _, -, -, -, rfl⟩ := exec_cases h
  case inl => exact .inr (.inl ⟨hi, rfl, rfl⟩)
  case inr.inl => exact .inr (.inr ⟨level, hi, hl, rfl, rfl⟩)
  all_goals exact .inl ⟨rfl, rfl⟩

/-- Settles O37: of the commands, `SET_BRIGHT` alone writes `BRIGHT`. -/
theorem brightChangesOnly : Obligations.BrightChangesOnly := by
  intro s t h
  obtain ⟨rst, hold, hm, htick⟩ | ⟨-, ht⟩ := step_kinds h
  case inr =>
    rw [ht]
    exact .inl rfl
  obtain ⟨hb, -⟩ | ⟨rfl, rfl⟩ | ⟨rfl, hp, i, ho, he⟩ := tick_controls htick
  · exact .inl hb
  · exact .inr (.inl ⟨hold, hm, rfl⟩)
  · obtain ⟨hb, -⟩ | ⟨-, hb, -⟩ | ⟨level, rfl, hl, hb, -⟩ := exec_controls he
    · exact .inl hb
    · exact .inl hb
    · exact .inr (.inr ⟨hold, level, hm, hp, ho, hl, hb⟩)

/-- Settles O38: of the commands, `INIT` alone writes `OE`. -/
theorem outputEnableChangesOnly : Obligations.OutputEnableChangesOnly := by
  intro s t h
  obtain ⟨rst, hold, hm, htick⟩ | ⟨-, ht⟩ := step_kinds h
  case inr =>
    rw [ht]
    exact .inl rfl
  obtain ⟨-, hoe⟩ | ⟨rfl, rfl⟩ | ⟨rfl, hp, i, ho, he⟩ := tick_controls htick
  · exact .inl hoe
  · exact .inr (.inl ⟨hold, hm, rfl⟩)
  · obtain ⟨-, hoe⟩ | ⟨rfl, -, hoe⟩ | ⟨_, -, -, -, hoe⟩ := exec_controls he
    · exact .inl hoe
    · exact .inr (.inr ⟨hold, hm, hp, ho, hoe⟩)
    · exact .inl hoe

/-! ### The ghost bits -/

/-- What a tick does to `TIMING_FAULT`. -/
theorem tick_timingFault (h : tick rst hold s = .next t) :
    t.timingFault = (s.timingFault || (!rst && (hold && s.ie) && decide (s.ph = .transmitting))) := by
  obtain ⟨rfl, rfl⟩ | ⟨-, hp, -, rfl⟩ | ⟨-, hp, w, i, -, -, he⟩ | ⟨rfl, -, hh, rfl⟩ | ⟨-, -, hh, he⟩ |
    ⟨-, hp, -, rfl⟩ := tick_cases h
  · simp
  · simp [hp]
  · rw [exec_frame he]
    simp [hp]
  · rw [hh]
    rfl
  · rw [txTick_frame he]
    simp [hh]
  · rw [latchTick_frame]
    simp [hp]

/-- Settles O41: a held tick of `TRANSMITTING` writes the bit, and no other step does. -/
theorem timingFaultExactly : Obligations.TimingFaultExactly := by
  intro s t h
  obtain ⟨rst, hold, hm, htick⟩ | ⟨hm, ht⟩ := step_kinds h
  · have hpins : decide (Move.tick rst hold = .tick false true) = (!rst && hold) := by
      cases rst <;> cases hold <;> rfl
    simp only [tick_timingFault htick, hm, hpins, Bool.and_assoc]
    rfl
  · rw [ht]
    simp [hm]

/-- No step clears `TIMING_FAULT`. -/
theorem step_timingFault (h : step s = .next t) (hf : s.timingFault = true) : t.timingFault = true := by
  rw [timingFaultExactly s t h, hf, Bool.true_or]

/-- The mark `REFUSED` stays when a run is kept going. -/
theorem advance_refused_stays (h : s.refused = true) : s.advance.refused = true := by
  rw [advance_refused (step_refused h)]

/-- `TIMING_FAULT` stays when a run is kept going. -/
theorem advance_timingFault_stays (h : s.timingFault = true) : s.advance.timingFault = true := by
  cases hs : step s with
  | next t =>
    rw [advance_next hs]
    exact step_timingFault hs h
  | fault f => rwa [advance_fault hs]
  | refused r => rwa [advance_refused hs]

/-- What one step of a run that is kept going keeps, any number of them keep. -/
theorem advances_stays {P : State → Prop} (hP : ∀ u, P u → P u.advance) (k : Nat) (h : P s) : P (s.advances k) := by
  induction k generalizing s with
  | zero => exact h
  | succ k ih => exact ih (hP s h)

/-- Settles O42: a refused run only repeats its refusal, and a good end carries neither mark. -/
theorem ghostMarksStay : Obligations.GhostMarksStay := by
  refine ⟨fun s r h => by rw [advance_refused h], fun s k h => ?refused, fun s k h => ?timingFault⟩
  case refused =>
    have hk := advances_stays (P := fun u => u.refused = true) (fun _ => advance_refused_stays) k h
    exact ⟨hk, fun ⟨_, hr, _⟩ => by simp [hk] at hr⟩
  case timingFault =>
    have hk := advances_stays (P := fun u => u.timingFault = true) (fun _ => advance_timingFault_stays) k h
    exact ⟨hk, fun ⟨_, _, hf⟩ => by simp [hk] at hf⟩

end Sys2Proof.Machine
end

section
/-! PROOFS. The invariant of spec/10_state.md rule R41: phase by phase, after reset, and kept by every step; and what
it says of the steps that stop and of the guard (spec/60_exceptions.md rules R190 and R191,
spec/41_frame_transmitter.md rule R135). -/

namespace Sys2Proof.Machine

variable {s t : State} {i : Instr} {rst hold : Bool}

/-! ### The invariant phase by phase -/

/-- The part of the invariant that names no phase. -/
def State.InvAlways (s : State) : Prop := s.cfg.WellFormed ∧ s.bright ≠ 3 ∧ s.buf.wf = true

/-- The invariant of an idle block. -/
theorem inv_idle_iff (hp : s.ph = .idle) :
    s.Inv ↔ s.InvAlways ∧ s.dout = false ∧ s.bitn = 0 ∧ s.tcnt = 0 ∧ s.lcnt = 0 ∧ s.guard = false ∧ s.borrowed = 0 := by
  constructor
  · rintro ⟨hc, hrest, -, ⟨hlcnt, -⟩, hguard, ⟨-, hborrowed⟩, hbright, hbuf⟩
    obtain ⟨hdout, hbitn, htcnt⟩ := hrest (by simp [hp])
    have hg : s.guard = false := by_contra fun hg => by simpa [hp] using hguard (by simpa using hg)
    exact ⟨⟨hc, hbright, hbuf⟩, hdout, hbitn, htcnt, hlcnt (by simp [hp]), hg, hborrowed hp⟩
  · rintro ⟨⟨hc, hbright, hbuf⟩, hdout, hbitn, htcnt, hlcnt, hg, hborrowed⟩
    exact ⟨hc, fun _ => ⟨hdout, hbitn, htcnt⟩, by simp [hp], ⟨fun _ => hlcnt, by simp [hp]⟩, by simp [hg],
      ⟨by simp [hp], fun _ => hborrowed⟩, hbright, hbuf⟩

/-- The invariant of a block that transmits. -/
theorem inv_transmitting_iff (hp : s.ph = .transmitting) :
    s.Inv ↔ s.InvAlways ∧ (1 ≤ s.bitn.toNat ∧ s.bitn.toNat ≤ 8) ∧ s.tcnt < s.cfg.p ∧ s.oe = true ∧
      s.dout = decide (s.tcnt < highTicks s.cfg s.wireBit) ∧ s.lcnt = 0 ∧ (s.guard = true → s.ie = false) ∧
      (s.srck = .buf → s.idx.toNat + s.rem.toNat = s.borrowed.toNat) := by
  constructor
  · rintro ⟨hc, -, hpulse, ⟨hlcnt, -⟩, hguard, ⟨hstream, -⟩, hbright, hbuf⟩
    obtain ⟨hlo, hhi, htcnt, hoe, hdout⟩ := hpulse hp
    exact ⟨⟨hc, hbright, hbuf⟩, ⟨hlo, hhi⟩, htcnt, hoe, hdout, hlcnt (by simp [hp]), fun hg => (hguard hg).2,
      fun hs => hstream ⟨hs, hp⟩⟩
  · rintro ⟨⟨hc, hbright, hbuf⟩, ⟨hlo, hhi⟩, htcnt, hoe, hdout, hlcnt, hguard, hstream⟩
    exact ⟨hc, fun h => absurd hp h, fun _ => ⟨hlo, hhi, htcnt, hoe, hdout⟩, ⟨fun _ => hlcnt, by simp [hp]⟩,
      fun hg => ⟨hp, hguard hg⟩, ⟨fun h => hstream h.1, by simp [hp]⟩, hbright, hbuf⟩

/-- The invariant of a block in its latch period. -/
theorem inv_latched_iff (hp : s.ph = .latched) :
    s.Inv ↔ s.InvAlways ∧ s.dout = false ∧ s.bitn = 0 ∧ s.tcnt = 0 ∧ s.lcnt < s.latchLen ∧ s.guard = false := by
  constructor
  · rintro ⟨hc, hrest, -, ⟨-, hlatch⟩, -, -, hbright, hbuf⟩
    obtain ⟨hdout, hbitn, htcnt⟩ := hrest (by simp [hp])
    obtain ⟨hlcnt, hg⟩ := hlatch hp
    exact ⟨⟨hc, hbright, hbuf⟩, hdout, hbitn, htcnt, hlcnt, hg⟩
  · rintro ⟨⟨hc, hbright, hbuf⟩, hdout, hbitn, htcnt, hlcnt, hg⟩
    exact ⟨hc, fun _ => ⟨hdout, hbitn, htcnt⟩, by simp [hp], ⟨fun h => absurd hp h, fun _ => ⟨hlcnt, hg⟩⟩, by simp [hg],
      ⟨by simp [hp], by simp [hp]⟩, hbright, hbuf⟩

/-- The part of the invariant that names no phase, out of the whole. -/
theorem State.Inv.always (h : s.Inv) : s.InvAlways := by
  obtain ⟨hc, -, -, -, -, -, hbright, hbuf⟩ := h
  exact ⟨hc, hbright, hbuf⟩

/-! ### Reset -/

/-- A block just after instantiation with well-formed parameters meets the invariant. -/
theorem inv_ofConfig {c : Config} (hc : c.WellFormed) : (State.ofConfig c).Inv := by
  have ⟨_, _, _, ⟨_, hbright⟩, _⟩ := hc
  exact (inv_idle_iff rfl).2 ⟨⟨hc, hbright, rfl⟩, rfl, rfl, rfl, rfl, rfl, rfl⟩

/-- Settles O35: instantiation takes well-formed parameters only, and those of the example are. -/
theorem resetMeetsInvariant : Obligations.ResetMeetsInvariant := by
  refine ⟨inv_ofConfig (by decide), fun c s h => ?_⟩
  unfold instantiate at h
  split at h
  · cases h
    exact inv_ofConfig ‹_›
  · cases h

/-- A tick of reset leaves the invariant. -/
theorem inv_resetBlock (h : s.InvAlways) : s.resetBlock.Inv := by
  obtain ⟨hc, -, hbuf⟩ := h
  have ⟨_, _, _, ⟨_, hbright⟩, _⟩ := hc
  exact (inv_idle_iff rfl).2 ⟨⟨hc, hbright, hbuf⟩, rfl, rfl, rfl, rfl, rfl, rfl⟩

/-! ### Acceptance -/

/-- The HIGH time of either bit is not empty and leaves a LOW time (R5). -/
theorem highTicks_bounds {c : Config} (hc : c.WellFormed) (bit : Bool) :
    0 < highTicks c bit ∧ highTicks c bit < c.p := by
  obtain ⟨⟨hf, -⟩, ⟨hh0, h0, h1, -, hp⟩, -⟩ := hc
  cases bit with
  | false => exact ⟨hh0, show c.h0 < c.p by omega⟩
  | true => exact ⟨show 0 < c.h1 by omega, hp⟩

/-- The first tick of a byte meets what the invariant says of a pulse, whatever the byte. -/
theorem inv_firstTick (hp : s.ph = .transmitting) (ha : s.InvAlways) (hbits : 1 ≤ s.bitn.toNat ∧ s.bitn.toNat ≤ 8)
    (ht : s.tcnt = 0) (hd : s.dout = true) (hoe : s.oe = true) (hl : s.lcnt = 0) (hg : s.guard = true → s.ie = false)
    (hs : s.srck = .buf → s.idx.toNat + s.rem.toNat = s.borrowed.toNat) : s.Inv := by
  obtain ⟨hpos, hlt⟩ := highTicks_bounds ha.1 s.wireBit
  refine (inv_transmitting_iff hp).2 ⟨ha, hbits, ?_, hoe, ?_, hl, hg, hs⟩
  · omega
  · rw [hd, ht, decide_eq_true hpos]

/-- Whatever the byte that is started. -/
theorem inv_startTx (ha : s.InvAlways) (hoe : s.oe = true) (hl : s.lcnt = 0) (hg : s.guard = true → s.ie = false)
    (hs : s.srck = .buf → s.idx.toNat + s.rem.toNat = s.borrowed.toNat) (b : Byte) : (s.startTx b).Inv :=
  inv_firstTick rfl ha (show 1 ≤ (8 : BitVec 4).toNat ∧ (8 : BitVec 4).toNat ≤ 8 by decide) rfl rfl hoe hl hg hs

/-- A count or a number of bits that is not 0, one less. -/
theorem toNat_sub_one {w : Nat} {n : BitVec w} (h : 0 < n.toNat) : (n - 1).toNat = n.toNat - 1 := by
  have hone : (1 : BitVec w).toNat = 1 := (BitVec.toNat_ofNat 1 w).trans (Nat.mod_eq_of_lt (by have := n.isLt; omega))
  rw [BitVec.toNat_sub_of_le (BitVec.le_def.2 (hone ▸ h)), hone]

/-- An index below the last of its width, one more. -/
theorem count_add_one_toNat {n : Count} (h : n.toNat < bufSize) : (n + 1).toNat = n.toNat + 1 := by
  have hone : (1 : Count).toNat = 1 := rfl
  have hsize : bufSize = 65535 := rfl
  rw [BitVec.toNat_add, hone]
  omega

/-- Acceptance of a command by an idle block keeps the invariant. -/
theorem inv_exec (h : s.Inv) (hp : s.ph = .idle) (he : exec i s = .next t) : t.Inv := by
  have ha : s.InvAlways := h.always
  obtain ⟨-, hdout, hbitn, htcnt, hlcnt, hg, hborrowed⟩ := (inv_idle_iff hp).1 h
  obtain ⟨-, rfl⟩ | ⟨level, -, hl, rfl⟩ | ⟨_, -, -, -, rfl⟩ | ⟨hoe, -, imm, rem, b, rfl⟩ | ⟨-, _, -, rfl⟩ |
    ⟨hoe, len, -, hlen, rfl⟩ | ⟨hoe, n, -, -, -, rfl⟩ := exec_cases he
  · exact (inv_idle_iff (s := { s with oe := true, dout := false }) hp).2 ⟨ha, rfl, hbitn, htcnt, hlcnt, hg, hborrowed⟩
  · obtain ⟨hc, -, hbuf⟩ := ha
    exact (inv_idle_iff (s := { s with bright := level }) hp).2
      ⟨⟨hc, hl, hbuf⟩, hdout, hbitn, htcnt, hlcnt, hg, hborrowed⟩
  · exact h
  · exact inv_startTx (s := (s.loadImm imm rem).unguarded false false) ha hoe hlcnt nofun nofun b
  · exact (inv_latched_iff rfl).2 ⟨ha, hdout, hbitn, htcnt, latchLen_pos ha.1, rfl⟩
  · have hpos := count_pos_iff.2 hlen
    have hsum : (1 : Count).toNat + (len - 1).toNat = len.toNat := by
      rw [toNat_sub_one hpos]
      exact Nat.add_sub_cancel' hpos
    exact inv_startTx (s := (s.takeGuard false).loadBuf len) ha hoe hlcnt (fun _ => rfl) (fun _ => hsum) _
  · exact inv_startTx (s := (s.takeGuard true).loadZero (clearRem n)) ha hoe hlcnt (fun _ => rfl) nofun 0

/-! ### The ticks of a busy block -/

/-- An effective hold changes nothing that the invariant speaks of. -/
theorem inv_heldTick (h : s.Inv) : s.heldTick.Inv := h

/-- In the last tick of a bit period the pin is LOW. -/
theorem dout_lastTick (h : s.Inv) (hp : s.ph = .transmitting) (hl : s.cfg.p ≤ s.tcnt + 1) : s.dout = false := by
  obtain ⟨ha, -, -, -, hdout, -⟩ := (inv_transmitting_iff hp).1 h
  obtain ⟨-, hlt⟩ := highTicks_bounds ha.1 s.wireBit
  rw [hdout]
  exact decide_eq_false (by omega)

/-- The pin one tick later, HIGH while fewer than `h` ticks of the bit period are over (R116). -/
theorem dout_next (m h : Nat) : (if m + 1 = h then false else decide (m < h)) = decide (m + 1 < h) := by
  split
  · simp; omega
  · simp; omega

/-- A tick inside a bit period keeps the invariant. -/
theorem inv_insideBit (h : s.Inv) (hp : s.ph = .transmitting) (hl : s.tcnt + 1 < s.cfg.p) :
    State.Inv { s with
      tcnt := s.tcnt + 1, dout := if s.tcnt + 1 = highTicks s.cfg s.wireBit then false else s.dout } := by
  obtain ⟨ha, hbits, -, hoe, hdout, hrest⟩ := (inv_transmitting_iff hp).1 h
  refine (inv_transmitting_iff (s := { s with
      tcnt := s.tcnt + 1, dout := if s.tcnt + 1 = highTicks s.cfg s.wireBit then false else s.dout }) hp).2
    ⟨ha, hbits, hl, hoe, ?_, hrest⟩
  change (if s.tcnt + 1 = highTicks s.cfg s.wireBit then false else s.dout) =
    decide (s.tcnt + 1 < highTicks s.cfg s.wireBit)
  rw [hdout, dout_next]

/-- The next byte out of its source comes onto the wire: the invariant is kept. -/
theorem inv_loadByte {b : Byte} {u : State} (h : s.Inv) (hp : s.ph = .transmitting) (hr : 0 < s.rem.toNat)
    (hu : State.nextByte { s with tcnt := 0 } = .ok (b, u)) : (u.loadByte b).Inv := by
  obtain ⟨ha, -, -, hoe, -, hlcnt, hg, hs⟩ := (inv_transmitting_iff hp).1 h
  have hbits : 1 ≤ (8 : BitVec 4).toNat ∧ (8 : BitVec 4).toNat ≤ 8 := by decide
  obtain ⟨himm, -, rfl⟩ | ⟨hbuf, -, rfl⟩ | ⟨hzero, -, rfl⟩ := nextByte_cases hu
  · exact inv_firstTick hp ha hbits rfl rfl hoe hlcnt hg fun hb => nomatch himm.symm.trans hb
  · refine inv_firstTick hp ha hbits rfl rfl hoe hlcnt hg fun hb => ?_
    have hsum := hs hb
    have hlt := s.borrowed.isLt
    have hidx : s.idx.toNat < bufSize := show s.idx.toNat < 65535 by omega
    change (s.idx + 1).toNat + (s.rem - 1).toNat = s.borrowed.toNat
    rw [toNat_sub_one hr, count_add_one_toNat hidx]
    omega
  · exact inv_firstTick hp ha hbits rfl rfl hoe hlcnt hg fun hb => nomatch hzero.symm.trans hb

/-- The end of the last byte: the invariant is kept, in the latch period or in `IDLE`. -/
theorem inv_endOfBytes (h : s.Inv) (hp : s.ph = .transmitting) (hl : s.cfg.p ≤ s.tcnt + 1) :
    (State.endOfBytes { s with tcnt := 0 }).Inv := by
  obtain ⟨ha, -, -, -, -, hlcnt, -⟩ := (inv_transmitting_iff hp).1 h
  have hdout := dout_lastTick h hp hl
  rw [endOfBytes_eq]
  cases hd : s.doLatch with
  | true => exact (inv_latched_iff rfl).2 ⟨ha, hdout, rfl, rfl, latchLen_pos ha.1, rfl⟩
  | false => exact (inv_idle_iff rfl).2 ⟨ha, hdout, rfl, rfl, hlcnt, rfl, rfl⟩

/-- A tick in `TRANSMITTING` keeps the invariant. -/
theorem inv_txTick (h : s.Inv) (hp : s.ph = .transmitting) (ht : s.txTick = .ok t) : t.Inv := by
  obtain ⟨ha, hbits, -, hoe, -, hlcnt, hg, hs⟩ := (inv_transmitting_iff hp).1 h
  obtain ⟨hl, rfl⟩ | ⟨hl, he⟩ := txTick_cases ht
  · exact inv_insideBit h hp hl
  · obtain ⟨hb, rfl⟩ | ⟨-, hr, b, u, hu, rfl⟩ | ⟨-, -, rfl⟩ := bitEnd_cases he
    · refine inv_firstTick hp ha ?_ rfl rfl hoe hlcnt hg hs
      change 1 < s.bitn.toNat at hb
      change 1 ≤ (s.bitn - 1).toNat ∧ (s.bitn - 1).toNat ≤ 8
      rw [toNat_sub_one (by omega)]
      omega
    · exact inv_loadByte h hp hr hu
    · exact inv_endOfBytes h hp (Nat.le_of_not_lt hl)

/-- A tick in `LATCHED` keeps the invariant. -/
theorem inv_latchTick (h : s.Inv) (hp : s.ph = .latched) : s.latchTick.Inv := by
  obtain ⟨ha, hdout, hbitn, htcnt, -, hg⟩ := (inv_latched_iff hp).1 h
  obtain ⟨hl, ht⟩ | ⟨-, ht⟩ := latchTick_cases s
  · rw [ht]
    exact (inv_latched_iff (s := { s with lcnt := s.lcnt + 1 }) hp).2 ⟨ha, hdout, hbitn, htcnt, hl, hg⟩
  · rw [ht]
    exact (inv_idle_iff rfl).2 ⟨ha, hdout, hbitn, htcnt, rfl, hg, rfl⟩

/-! ### Every step -/

/-- A tick keeps the invariant. -/
theorem inv_tick (h : s.Inv) (ht : tick rst hold s = .next t) : t.Inv := by
  obtain ⟨-, rfl⟩ | ⟨-, -, -, rfl⟩ | ⟨-, hp, w, i, -, -, he⟩ | ⟨-, -, -, rfl⟩ | ⟨-, hp, -, he⟩ | ⟨-, hp, -, rfl⟩ :=
    tick_cases ht
  · exact inv_resetBlock h.always
  · exact h
  · exact inv_exec (s := s.takeOffer) h hp he
  · exact inv_heldTick h
  · exact inv_txTick h hp he
  · exact inv_latchTick h hp

/-- A move of the host keeps the invariant: it writes `IE` without the guard only, and `BUF` in the canonical form. -/
theorem inv_runMove {m : Move} (h : s.Inv) (hm : runMove m s = .next t) : t.Inv := by
  obtain ⟨w, -, ⟨-, rfl⟩ | ⟨-, rfl⟩⟩ | ⟨v, -, hg, rfl⟩ | ⟨a, v, b, -, -, hb, rfl⟩ | ⟨rst, hold, -, htick⟩ :=
    runMove_cases hm
  · exact h
  · exact h
  · obtain ⟨hc, hrest, hpulse, hlatch, -, hlast⟩ := h
    exact ⟨hc, hrest, hpulse, hlatch, fun hg' => by simp [hg] at hg', hlast⟩
  · obtain ⟨hc, hrest, hpulse, hlatch, hguard, hstream, hbright, hbuf⟩ := h
    exact ⟨hc, hrest, hpulse, hlatch, hguard, hstream, hbright, bufWrite_wf hbuf hb⟩
  · exact inv_tick h htick

/-- Settles O36: the move that the step is keeps it, whatever is left to come. -/
theorem stepKeepsInvariant : Obligations.StepKeepsInvariant := by
  intro s t h hs
  obtain ⟨-, -, hm⟩ := step_cases hs
  exact inv_runMove (s := s.popMove) h hm

end Sys2Proof.Machine
end

section
/-! PROOFS. Which ticks stop, the guard and its holds, and every change of the phase (spec/60_exceptions.md rules R190
and R191, spec/41_frame_transmitter.md rule R135, spec/43_string_controller.md rule R180). -/

namespace Sys2Proof.Machine

variable {s t : State} {i : Instr} {rst hold : Bool}

/-! ### Ticks that stop -/

/-- The five commands that transmit, which need an initialised pin (R171). -/
def Transmits (i : Instr) : Prop :=
  (∃ v, i = .sendByte v) ∨ (∃ r g b, i = .writeColor r g b) ∨ (∃ hue, i = .writeHue hue) ∨
    (∃ len, i = .sendStream len) ∨ ∃ n, i = .clear n

/-- A command with a word goes on at acceptance, or it is one of the five on an uninitialised pin, or it is a `CLEAR`
above the bound. -/
theorem exec_outcomes (hi : i.wf = true) (s : State) :
    (∃ t, exec i s = .next t) ∨ (exec i s = .refused .notInitialised ∧ s.oe = false ∧ Transmits i) ∨
    (exec i s = .refused .clearTooLong ∧ s.oe = true ∧ ∃ n, i = .clear n ∧ s.cfg.maxPixels < n.toNat) := by
  cases hoe : s.oe with
  | false =>
    obtain ⟨-, huninit, -, hbright⟩ := uninitialisedRefused s
    obtain ⟨-, hbyte, hcolor, hhue, hstream, hclear⟩ := huninit hoe
    cases i with
    | init => exact .inl ⟨_, exec_init s⟩
    | setBright level => exact .inl (hbright level (bne_iff_ne.1 hi))
    | sendByte v => exact .inr (.inl ⟨hbyte v, rfl, .inl ⟨v, rfl⟩⟩)
    | writeColor r g b => exact .inr (.inl ⟨hcolor r g b, rfl, .inr (.inl ⟨r, g, b, rfl⟩)⟩)
    | writeHue hue => exact .inr (.inl ⟨hhue hue, rfl, .inr (.inr (.inl ⟨hue, rfl⟩))⟩)
    | sendStream len => exact .inr (.inl ⟨hstream len, rfl, .inr (.inr (.inr (.inl ⟨len, rfl⟩)))⟩)
    | clear n => exact .inr (.inl ⟨hclear n, rfl, .inr (.inr (.inr (.inr ⟨n, rfl⟩)))⟩)
  | true =>
    cases i with
    | init => exact .inl ⟨_, exec_init s⟩
    | setBright level => exact .inl ⟨_, exec_setBright (bne_iff_ne.1 hi) s⟩
    | sendByte v => exact .inl ⟨_, exec_sendByte hoe v⟩
    | writeColor r g b => exact .inl ⟨_, exec_writeColor hoe r g b⟩
    | writeHue hue =>
      cases hx : hueRgb hue s.bright with
      | none => exact .inl ⟨_, exec_writeHue_none hoe hx⟩
      | some x => exact .inl ⟨_, exec_writeHue hoe hx⟩
    | sendStream len =>
      by_cases hl : len = 0
      · exact .inl ⟨_, hl ▸ exec_sendStream_zero hoe⟩
      · exact .inl ⟨_, exec_sendStream hoe hl⟩
    | clear n =>
      by_cases hm : s.cfg.maxPixels < n.toNat
      · exact .inr (.inr ⟨exec_clear_tooLong hoe hm, rfl, n, rfl, hm⟩)
      · by_cases hn : n = 0
        · exact .inl ⟨_, hn ▸ exec_clear_zero hoe⟩
        · exact .inl ⟨_, exec_clear hoe hn (Nat.le_of_not_lt hm)⟩

/-- From the invariant the byte source gives a byte while one is to come: `IDX` is then below the size of `BUF` (R38,
R41). -/
theorem nextByte_ok (hr : 0 < s.rem.toNat) (hs : s.srck = .buf → s.idx.toNat + s.rem.toNat = s.borrowed.toNat) :
    ∃ b u, s.nextByte = .ok (b, u) := by
  cases hn : s.nextByte with
  | ok x => exact ⟨x.1, x.2, rfl⟩
  | error f =>
    obtain ⟨-, hbuf, hidx⟩ := nextByte_error hn
    have hsum := hs hbuf
    have hlt := s.borrowed.isLt
    exact absurd (show s.idx.toNat < 65535 by omega) hidx

/-- From the invariant a tick in `TRANSMITTING` does not fault. -/
theorem txTick_ok (h : s.Inv) (hp : s.ph = .transmitting) : ∃ t, s.txTick = .ok t := by
  obtain ⟨-, -, -, -, -, -, -, hs⟩ := (inv_transmitting_iff hp).1 h
  by_cases hl : s.tcnt + 1 < s.cfg.p
  · exact ⟨_, txTick_inside hl⟩
  rw [txTick_last (Nat.le_of_not_lt hl)]
  by_cases hb : 1 < s.bitn.toNat
  · exact ⟨_, bitEnd_more (s := { s with tcnt := 0 }) hb⟩
  by_cases hr : s.rem = 0
  · exact ⟨_, bitEnd_last (s := { s with tcnt := 0 }) (Nat.le_of_not_lt hb) hr⟩
  have hpos := count_pos_iff.2 hr
  obtain ⟨b, u, hu⟩ := nextByte_ok (s := { s with tcnt := 0 }) hpos hs
  exact ⟨_, bitEnd_next (s := { s with tcnt := 0 }) (Nat.le_of_not_lt hb) hpos hu⟩

/-- A tick of a busy block that meets the invariant goes on. -/
theorem tick_busy_ok (h : s.Inv) (hp : s.ph ≠ .idle) (hold : Bool) : ∃ t, tick false hold s = .next t := by
  cases hh : hold && s.ie with
  | true => exact ⟨_, tick_held hp hh⟩
  | false =>
    cases hph : s.ph with
    | idle => exact absurd hph hp
    | transmitting =>
      obtain ⟨t, ht⟩ := txTick_ok h hph
      exact ⟨t, by rw [tick_transmitting hph hh, ht]; rfl⟩
    | latched => exact ⟨_, tick_latched hph hh⟩

/-- Settles O44: a tick of reset, of a busy block or with nothing offered goes on; acceptance is the decoder's answer
and then the command's. -/
theorem ticksNeverFault : Obligations.TicksNeverFault := by
  intro s rst hold h ht
  cases rst with
  | true => exact .inl ⟨_, step_reset ht⟩
  | false =>
    by_cases hp : s.ph = .idle
    case neg =>
      obtain ⟨hr, hc, hm⟩ := ht
      obtain ⟨t, htick⟩ := tick_busy_ok (s := s.popMove) h hp hold
      exact .inl ⟨t, (step_tick hr hc hm).trans htick⟩
    cases ho : s.offer with
    | none => exact .inl ⟨_, step_idle ht hp ho⟩
    | some w =>
      cases hd : decode w with
      | error why => exact .inr ⟨rfl, hp, w, rfl, .inl ⟨step_reserved ht hp ho hd, why, hd⟩⟩
      | ok i =>
        obtain ⟨hi, -⟩ := encodeOfDecode w i hd
        rw [step_command ht hp ho hd]
        obtain hn | ⟨he, hoe, hi⟩ | ⟨he, hoe, n, rfl, hm⟩ := exec_outcomes hi s.popMove.takeOffer
        · exact .inl hn
        · exact .inr ⟨rfl, hp, w, rfl, .inr (.inl ⟨he, hoe, i, hd, hi⟩)⟩
        · exact .inr ⟨rfl, hp, w, rfl, .inr (.inr ⟨he, hoe, n, hd, hm⟩)⟩

/-- Settles O45: the invariant has `IE = 0` under the guard, so that no hold is effective. -/
theorem guardIgnoresHolds : Obligations.GuardIgnoresHolds := by
  intro s ms h hg
  have ⟨hc, _, _, _, hguard, _⟩ := h
  obtain ⟨-, hie⟩ := hguard hg
  exact ⟨hie, holdFreezes.2.2 s ms (.inl hie),
    fun v hr => hostDutiesStop.2.2.1 { s with moves := .writeIe v :: ms } ms v ⟨hr, hc, rfl⟩ hg⟩

/-! ### Changes of the phase -/

/-- An empty frame sends no byte. -/
theorem wireBytes_emptyFrame (hi : i = .sendStream 0 ∨ i = .clear 0) (s : State) : wireBytes s i = [] := by
  obtain rfl | rfl := hi
  · rfl
  · rfl

/-- Every command that changes the phase does so on an initialised pin, and only an empty frame does so with no byte to
send. -/
theorem exec_phase (h : exec i s = .next t) (hne : t.ph ≠ s.ph) :
    s.oe = true ∧ (∀ n, i = .clear n → n.toNat ≤ s.cfg.maxPixels) ∧
      t.ph = (if i = .sendStream 0 ∨ i = .clear 0 then .latched else .transmitting) ∧
      (wireBytes s i = [] → i = .sendStream 0 ∨ i = .clear 0) := by
  have hf := firstByteLoaded s t i h
  have hoe : s.oe = true := by
    refine oe_of_exec h ?_ ?_
    · rintro rfl
      exact hne hf
    · rintro level rfl
      exact hne hf
  refine ⟨hoe, fun n hn => le_maxPixels_of_exec (hn ▸ h), ?_⟩
  cases hw : wireBytes s i with
  | nil =>
    rw [hw] at hf
    by_cases hi : i = .sendStream 0 ∨ i = .clear 0
    · rw [if_pos hi]
      exact ⟨hf.trans (if_pos hi), fun _ => hi⟩
    · exact absurd (hf.trans (if_neg hi)) hne
  | cons b bs =>
    rw [hw] at hf
    obtain ⟨-, -, -, -, hph⟩ := hf
    have hi : ¬ (i = .sendStream 0 ∨ i = .clear 0) := fun hi => by simp [wireBytes_emptyFrame hi] at hw
    rw [if_neg hi]
    exact ⟨hph, nofun⟩

/-- A tick in `TRANSMITTING` changes the phase only at the end of the last bit of the last byte. -/
theorem txTick_phase (h : s.txTick = .ok t) (hne : t.ph ≠ s.ph) :
    s.cfg.p ≤ s.tcnt + 1 ∧ s.bitn.toNat ≤ 1 ∧ s.rem = 0 ∧ t.ph = if s.doLatch then .latched else .idle := by
  obtain ⟨-, rfl⟩ | ⟨hl, he⟩ := txTick_cases h
  · exact absurd rfl hne
  obtain ⟨-, rfl⟩ | ⟨-, -, b, u, hu, rfl⟩ | ⟨hb, hr, rfl⟩ := bitEnd_cases he
  · exact absurd rfl hne
  · rw [nextByte_frame hu] at hne
    exact absurd rfl hne
  · exact ⟨Nat.le_of_not_lt hl, Nat.le_of_not_lt hb, count_eq_zero hr,
      by rw [endOfBytes_eq]⟩

/-- The bytes of a command do not depend on the port or on what is to come. -/
theorem wireBytes_accepted (s : State) (i : Instr) : wireBytes s.popMove.takeOffer i = wireBytes s i := by
  cases i <;> rfl

/-- Settles O43: by the kinds of tick; the host's moves and the held ticks leave the phase. -/
theorem phaseTransitions : Obligations.PhaseTransitions := by
  intro s t h hne
  obtain ⟨rst, hold, hm, htick⟩ | ⟨-, ht⟩ := step_kinds h
  case inr =>
    rw [ht] at hne
    exact absurd rfl hne
  obtain ⟨rfl, rfl⟩ | ⟨-, -, -, rfl⟩ | ⟨rfl, hp, w, i, ho, hd, he⟩ | ⟨-, -, -, rfl⟩ | ⟨rfl, hp, hh, he⟩ |
    ⟨rfl, hp, hh, rfl⟩ := tick_cases htick
  case inl => exact .inl ⟨hold, hm, rfl⟩
  case inr.inl => exact absurd rfl hne
  case inr.inr.inl =>
    obtain ⟨-, rfl⟩ := encodeOfDecode w i hd
    obtain ⟨hoe, hmax, hph, hbytes⟩ := exec_phase he hne
    rw [wireBytes_accepted] at hbytes
    exact .inr (.inl ⟨hold, i, hm, hp, ho, hoe, hmax, hph, hbytes⟩)
  case inr.inr.inr.inl => exact absurd rfl hne
  case inr.inr.inr.inr.inl =>
    exact .inr (.inr (.inl ⟨hold, hm, hp, hh, txTick_phase (s := s.popMove) he hne⟩))
  case inr.inr.inr.inr.inr =>
    obtain ⟨-, hl⟩ | ⟨hl, ht⟩ := latchTick_cases s.popMove
    · rw [hl] at hne
      exact absurd rfl hne
    · exact .inr (.inr (.inr ⟨hold, hm, hp, hh, Nat.le_of_not_lt hl, by rw [ht]⟩))

end Sys2Proof.Machine
end

section
/-! PROOFS. What a tick depends on of the block's surroundings: of `BUF` one byte, of the command port nothing while the
block is busy, of the moves to come nothing; and what it writes into `IE` (spec/10_state.md rules R34 and R39,
spec/20_memory.md rules R56, R57 and R61, spec/43_string_controller.md rule R182). -/

namespace Sys2Proof.Machine

variable {s t : State} {i : Instr} {rst hold : Bool} {m : Memory} {o : Option CmdWord} {ms : List Move}

/-! ### Other surroundings -/

/-- The block as it is, with another buffer, another offer and other moves to come. -/
def State.around (s : State) (m : Memory) (o : Option CmdWord) (ms : List Move) : State :=
  { s with buf := m, offer := o, moves := ms }

/-- A command at acceptance reads at most `BUF[0]` of them. -/
theorem exec_around (h : exec i s = .next t)
    (hread : ∀ len, i = .sendStream len → s.oe = true → len ≠ 0 → bufRead m 0 = bufRead s.buf 0) :
    exec i (s.around m o ms) = .next (t.around m o ms) := by
  cases i with
  | init => cases h; rfl
  | setBright level =>
    by_cases hl : level = 3
    · subst hl; cases h
    · rw [exec_setBright hl] at h ⊢
      cases h
      rfl
  | sendByte v =>
    have hoe := oe_of_exec h nofun nofun
    rw [exec_sendByte hoe] at h
    cases h
    exact exec_sendByte (s := s.around m o ms) hoe v
  | writeColor r g b =>
    have hoe := oe_of_exec h nofun nofun
    rw [exec_writeColor hoe] at h
    cases h
    exact exec_writeColor (s := s.around m o ms) hoe r g b
  | writeHue hue =>
    have hoe := oe_of_exec h nofun nofun
    cases hx : hueRgb hue s.bright with
    | none =>
      rw [exec_writeHue_none hoe hx] at h
      cases h
      exact exec_writeHue_none (s := s.around m o ms) hoe hx
    | some x =>
      rw [exec_writeHue hoe hx] at h
      cases h
      exact exec_writeHue (s := s.around m o ms) hoe hx
  | sendStream len =>
    have hoe := oe_of_exec h nofun nofun
    by_cases hl : len = 0
    · subst hl
      rw [exec_sendStream_zero hoe] at h
      cases h
      exact exec_sendStream_zero (s := s.around m o ms) hoe
    · have hb : m.get 0 = s.buf.get 0 := by
        simpa only [bufRead_zero, Option.some.injEq] using hread len rfl hoe hl
      rw [exec_sendStream hoe hl] at h
      cases h
      rw [exec_sendStream (s := s.around m o ms) hoe hl]
      change Host.Outcome.next (State.startTx _ (m.get 0)) = _
      rw [hb]
      rfl
  | clear n =>
    have hoe := oe_of_exec h nofun nofun
    have hm := le_maxPixels_of_exec h
    by_cases hn : n = 0
    · subst hn
      rw [exec_clear_zero hoe] at h
      cases h
      exact exec_clear_zero (s := s.around m o ms) hoe
    · rw [exec_clear hoe hn hm] at h
      cases h
      exact exec_clear (s := s.around m o ms) hoe hn hm

/-- The byte source reads at most the byte of `BUF` at `IDX`. -/
theorem nextByte_around {b : Byte} (h : s.nextByte = .ok (b, t))
    (hread : s.srck = .buf → bufRead m s.idx = bufRead s.buf s.idx) :
    (s.around m o ms).nextByte = .ok (b, t.around m o ms) := by
  obtain ⟨hs, rfl, rfl⟩ | ⟨hs, hb, rfl⟩ | ⟨hs, rfl, rfl⟩ := nextByte_cases h
  · exact nextByte_imm (s := s.around m o ms) hs
  · exact nextByte_buf (s := s.around m o ms) hs ((hread hs).trans hb)
  · exact nextByte_zero (s := s.around m o ms) hs

/-- The end of a bit period reads a byte of `BUF` when one is to come out of it. -/
theorem bitEnd_around (h : s.bitEnd = .ok t)
    (hread : s.bitn.toNat ≤ 1 → s.rem ≠ 0 → s.srck = .buf → bufRead m s.idx = bufRead s.buf s.idx) :
    (s.around m o ms).bitEnd = .ok (t.around m o ms) := by
  obtain ⟨hb, rfl⟩ | ⟨hb, hr, b, u, hu, rfl⟩ | ⟨hb, hr, rfl⟩ := bitEnd_cases h
  · exact bitEnd_more (s := s.around m o ms) hb
  · have hb' := Nat.le_of_not_lt hb
    exact bitEnd_next (s := s.around m o ms) hb' hr (nextByte_around hu (hread hb' (count_pos_iff.1 hr)))
  · rw [bitEnd_last (s := s.around m o ms) (Nat.le_of_not_lt hb) (count_eq_zero hr), endOfBytes_eq, endOfBytes_eq]
    rfl

/-- A tick in `TRANSMITTING` reads a byte of `BUF` in the last tick of a byte that another one out of it follows. -/
theorem txTick_around (h : s.txTick = .ok t)
    (hread : s.cfg.p ≤ s.tcnt + 1 → s.bitn.toNat ≤ 1 → s.rem ≠ 0 → s.srck = .buf →
      bufRead m s.idx = bufRead s.buf s.idx) :
    (s.around m o ms).txTick = .ok (t.around m o ms) := by
  obtain ⟨hl, rfl⟩ | ⟨hl, he⟩ := txTick_cases h
  · exact txTick_inside (s := s.around m o ms) hl
  · rw [txTick_last (s := s.around m o ms) (Nat.le_of_not_lt hl)]
    exact bitEnd_around he (hread (Nat.le_of_not_lt hl))

/-- A tick in `LATCHED` reads nothing of them. -/
theorem latchTick_around (s : State) (m : Memory) (o : Option CmdWord) (ms : List Move) :
    (s.around m o ms).latchTick = s.latchTick.around m o ms := by
  by_cases hl : s.lcnt + 1 < s.latchLen
  · rw [latchTick_inside hl]
    exact latchTick_inside (s := s.around m o ms) hl
  · rw [latchTick_last (Nat.le_of_not_lt hl)]
    exact latchTick_last (s := s.around m o ms) (Nat.le_of_not_lt hl)

/-- The byte that a transmitting block reads in the tick is the one at `buf_addr` (R57). -/
theorem bufAddr_lastTick (hp : s.ph = .transmitting) (hh : (hold && s.ie) = false) (hl : s.cfg.p ≤ s.tcnt + 1)
    (hb : s.bitn.toNat ≤ 1) (hr : s.rem ≠ 0) (hs : s.srck = .buf) : s.bufAddr false hold = some s.idx := by
  simpa [State.bufAddr, State.effectiveHold, State.lastTickOfByte, State.lastTickOfBit, hp, hh, hl, hb, hs] using hr

/-- A tick of a busy block reads of its surroundings the byte at `buf_addr` alone. -/
theorem tick_busy_around (h : tick false hold s = .next t) (hp : s.ph ≠ .idle)
    (hread : ∀ a, s.bufAddr false hold = some a → bufRead m a = bufRead s.buf a) :
    tick false hold (s.around m o ms) = .next (t.around m o ms) := by
  obtain ⟨hr, -⟩ | ⟨-, hi, -⟩ | ⟨-, hi, -⟩ | ⟨-, -, hh, rfl⟩ | ⟨-, hp, hh, he⟩ | ⟨-, hp, hh, rfl⟩ := tick_cases h
  · cases hr
  · exact absurd hi hp
  · exact absurd hi hp
  · exact tick_held (s := s.around m o ms) hp hh
  · rw [tick_transmitting (s := s.around m o ms) hp hh,
      txTick_around he fun hl hb hr hs => hread _ (bufAddr_lastTick hp hh hl hb hr hs)]
    rfl
  · rw [tick_latched (s := s.around m o ms) hp hh, latchTick_around]

/-- The command that a tick accepts (R181). -/
theorem commandTaken_accept {w : CmdWord} (hp : s.ph = .idle) (ho : s.offer = some w) (hd : decode w = .ok i) :
    s.commandTaken false = some i := by
  simp [State.commandTaken, State.cmdReady, hp, ho, hd]

/-- The byte that acceptance of a stream reads is the one at `buf_addr` (R57). -/
theorem bufAddr_accept {w : CmdWord} {len : Count} (hp : s.ph = .idle) (ho : s.offer = some w)
    (hd : decode w = .ok (.sendStream len)) (hoe : s.oe = true) (hl : len ≠ 0) : s.bufAddr false hold = some 0 := by
  simpa [State.bufAddr, hp, commandTaken_accept hp ho hd, hoe] using hl

/-- A tick of a busy block leaves the offer (R64). -/
theorem tick_busy_offer (h : tick false hold s = .next t) (hp : s.ph ≠ .idle) : t.offer = s.offer := by
  obtain ⟨hr, -⟩ | ⟨-, hi, -⟩ | ⟨-, hi, -⟩ | ⟨-, -, -, rfl⟩ | ⟨-, -, -, he⟩ | ⟨-, -, -, rfl⟩ := tick_cases h
  · cases hr
  · exact absurd hi hp
  · exact absurd hi hp
  · rfl
  · rw [txTick_frame he]
  · rw [latchTick_frame]

/-- A tick reads of `BUF` the byte at `buf_addr` alone, and nothing of what is to come. -/
theorem tick_around (h : tick rst hold s = .next t)
    (hread : ∀ a, s.bufAddr rst hold = some a → bufRead m a = bufRead s.buf a) :
    tick rst hold (s.around m s.offer ms) = .next (t.around m t.offer ms) := by
  by_cases hp : rst = false ∧ s.ph ≠ .idle
  · obtain ⟨rfl, hp⟩ := hp
    rw [tick_busy_offer h hp]
    exact tick_busy_around h hp hread
  obtain ⟨rfl, rfl⟩ | ⟨rfl, hi, ho, rfl⟩ | ⟨rfl, hi, w, i, ho, hd, he⟩ | ⟨hr, hb, -⟩ | ⟨hr, hb, -⟩ | ⟨hr, hb, -⟩ :=
    tick_cases h
  · rfl
  · exact tick_idle (s := t.around m t.offer ms) hi ho hold
  · have hoffer : t.offer = none := by rw [exec_frame he]; rfl
    rw [tick_accept (s := s.around m s.offer ms) hi ho, accept_ok hd, hoffer]
    refine exec_around (s := s.takeOffer) he fun len hlen hoe hl => ?_
    subst hlen
    exact hread 0 (bufAddr_accept hi ho hd hoe hl)
  · exact absurd ⟨hr, hb⟩ hp
  · exact absurd ⟨hr, by simp [hb]⟩ hp
  · exact absurd ⟨hr, by simp [hb]⟩ hp

/-- Settles O40: the tick with the other buffer. -/
theorem readsOnlyAddressedByte : Obligations.ReadsOnlyAddressedByte := by
  intro s t rst hold m ht hread h
  have htick := tick_of_step ht h
  obtain ⟨hr, hc, hm⟩ := ht
  obtain ⟨-, -, hmoves⟩ := tick_frame htick
  have hother := tick_around (ms := s.popMove.moves) htick hread
  have ht : t.around m t.offer s.popMove.moves = { t with buf := m } := by rw [← hmoves]; rfl
  exact (step_tick (s := { s with buf := m }) hr hc hm).trans (hother.trans (congrArg _ ht))

/-- Settles O8: the tick with the other offer. -/
theorem offerWaitsWhileBusy : Obligations.OfferWaitsWhileBusy := by
  refine ⟨fun s hold => step_idle, fun s t hold o ht hp h => ⟨by simp [State.cmdReady, hp], ?_⟩⟩
  have htick := tick_of_step ht h
  obtain ⟨hr, hc, hm⟩ := ht
  obtain ⟨-, hbuf, hmoves⟩ := tick_frame htick
  have hother := tick_busy_around (m := s.popMove.buf) (o := o) (ms := s.popMove.moves) htick hp fun _ _ => rfl
  have ht : t.around s.popMove.buf o s.popMove.moves = { t with offer := o } := by rw [← hbuf, ← hmoves]; rfl
  exact (step_tick (s := { s with offer := o }) hr hc hm).trans (hother.trans (congrArg _ ht))

/-! ### The port of `IE` -/

/-- No command is taken when none is offered, or by a busy block. -/
theorem commandTaken_none (h : s.offer = none ∨ s.ph ≠ .idle) : s.commandTaken false = none := by
  obtain h | h := h
  · simp [State.commandTaken, h]
  · simp [State.commandTaken, State.cmdReady, h]

/-- The port in a tick of an idle block: 0 when the guard is taken. -/
theorem ieWrite_idle (hp : s.ph = .idle) :
    s.ieWrite false hold = if s.takesGuard false then some false else none := by
  simp [State.ieWrite, hp]

/-- The port in a tick of a busy block that accepts nothing: the saved value when the guard is released. -/
theorem ieWrite_transmitting (hp : s.ph = .transmitting) (hh : (hold && s.ie) = false) :
    s.ieWrite false hold =
      if s.cfg.p ≤ s.tcnt + 1 ∧ s.bitn.toNat ≤ 1 ∧ s.rem = 0 ∧ s.guard = true then some s.savedIe else none := by
  have htaken := commandTaken_none (s := s) (.inr (by simp [hp]))
  simp [State.ieWrite, State.takesGuard, State.effectiveHold, State.lastTickOfByte, State.lastTickOfBit, htaken, hp, hh,
    and_assoc]

/-- The port in a tick that freezes the block or finds it in `LATCHED`: nothing. -/
theorem ieWrite_none (hp : s.ph ≠ .idle) (h : s.ph = .latched ∨ (hold && s.ie) = true) :
    s.ieWrite false hold = none := by
  have htaken := commandTaken_none (s := s) (.inr hp)
  obtain h | h := h
  · simp [State.ieWrite, State.takesGuard, htaken, h]
  · simp [State.ieWrite, State.takesGuard, State.effectiveHold, State.busy, htaken, h, hp]

/-- Acceptance writes `IE` as the port says. -/
theorem exec_ie (hp : s.ph = .idle) (ho : s.commandTaken false = some i) (he : exec i s.takeOffer = .next t) :
    t.ie = (s.ieWrite false hold).getD s.ie := by
  rw [ieWrite_idle hp]
  obtain ⟨rfl, rfl⟩ | ⟨level, rfl, -, rfl⟩ | ⟨hue, rfl, -, -, rfl⟩ |
    ⟨-, ⟨v, rfl⟩ | ⟨r, g, b, rfl⟩ | ⟨hue, rfl, -⟩, _, _, _, rfl⟩ | ⟨-, _, ⟨rfl, -⟩ | ⟨rfl, -⟩, rfl⟩ |
    ⟨hoe, len, rfl, hl, rfl⟩ | ⟨hoe, n, rfl, hn, hm, rfl⟩ := exec_cases he
  case inr.inr.inr.inr.inr.inl =>
    have htakes : s.takesGuard false = true := by simpa [State.takesGuard, ho, show s.oe = true from hoe] using hl
    simp [htakes]
  case inr.inr.inr.inr.inr.inr =>
    have htakes : s.takesGuard false = true := by
      simpa [State.takesGuard, ho, show s.oe = true from hoe] using ⟨hn, hm⟩
    simp [htakes]
  all_goals simp [State.takesGuard, ho]

/-- A tick in `TRANSMITTING` that nothing freezes writes `IE` as the port says. -/
theorem txTick_ie (hp : s.ph = .transmitting) (hh : (hold && s.ie) = false) (he : s.txTick = .ok t) :
    t.ie = (s.ieWrite false hold).getD s.ie := by
  rw [ieWrite_transmitting hp hh]
  obtain ⟨hl, rfl⟩ | ⟨hl, he⟩ := txTick_cases he
  · simp [Nat.not_le.2 hl]
  obtain ⟨hb, rfl⟩ | ⟨hb, hr, b, u, hu, rfl⟩ | ⟨hb, hr, rfl⟩ := bitEnd_cases he
  · simp [Nat.not_le.2 hb]
  · rw [nextByte_frame hu, if_neg fun ⟨_, _, hrem, _⟩ => count_pos_iff.1 hr hrem]
    rfl
  · have hrem : s.rem = 0 := count_eq_zero hr
    rw [endOfBytes_eq]
    cases hg : s.guard <;> simp [Nat.le_of_not_lt hl, Nat.le_of_not_lt hb, hrem]

/-- A tick writes `IE` exactly as the port says. -/
theorem tick_ie (h : tick rst hold s = .next t) : t.ie = (s.ieWrite rst hold).getD s.ie := by
  obtain ⟨rfl, rfl⟩ | ⟨rfl, hp, ho, rfl⟩ | ⟨rfl, hp, w, i, ho, hd, he⟩ | ⟨rfl, hp, hh, rfl⟩ | ⟨rfl, hp, hh, he⟩ |
    ⟨rfl, hp, hh, rfl⟩ := tick_cases h
  · cases hg : s.guard <;> simp [State.ieWrite, hg]
  · simp [ieWrite_idle hp, State.takesGuard, commandTaken_none (.inl ho)]
  · exact exec_ie hp (commandTaken_accept hp ho hd) he
  · simp [ieWrite_none hp (.inr hh)]
  · exact txTick_ie hp hh he
  · rw [latchTick_frame, ieWrite_none (by simp [hp]) (.inl hp)]
    rfl

/-- Settles O39: the ticks by the port; of the host's moves the write of `IE` alone writes it. -/
theorem interruptEnablePort : Obligations.InterruptEnablePort := by
  refine ⟨fun s t rst hold ht h => tick_ie (s := s.popMove) (tick_of_step ht h), fun s t m ms hh hm h => ?_⟩
  rw [step_host hh] at h
  obtain ⟨w, -, ⟨-, rfl⟩ | ⟨-, rfl⟩⟩ | ⟨v, hv, hg, rfl⟩ | ⟨a, v, b, -, -, -, rfl⟩ | ⟨rst, hold, ht, -⟩ :=
    runMove_cases h
  · exact .inl rfl
  · exact .inl rfl
  · exact .inr ⟨v, hv, hg, rfl⟩
  · exact .inl rfl
  · exact absurd ht (hm rst hold)

end Sys2Proof.Machine
end

section
/-! PROOFS. The receiver-side reading: what a well-formed profile reads as, which traces are `Indeterminate`, and the
trace of a byte list read back (spec/30_encoding.md rules R97 to R102, spec/70_reset_and_hazards.md rule R248). -/

namespace Sys2Proof.Machine

variable {c : Config} {b : Bool} {h l k : Nat} {t : Trace}

/-! ### Pulses and latches of a well-formed profile -/

/-- A HIGH of at most 500 nanoseconds is a 0 (R97). -/
theorem bitOf_zero (h1 : 1 ≤ h) (h2 : h * 1000000000 ≤ 500 * c.fClk) : bitOf c h = some false := if_pos ⟨h1, h2⟩

/-- A HIGH of at least 625 nanoseconds is a 1 (R97). -/
theorem bitOf_one (h1 : 625 * c.fClk ≤ h * 1000000000) : bitOf c h = some true := by
  have hn : ¬ (1 ≤ h ∧ h * 1000000000 ≤ 500 * c.fClk) := by omega
  rw [bitOf, if_neg hn, if_pos h1]

/-- A HIGH between the two is no bit (R97). -/
theorem bitOf_none (h1 : 500 * c.fClk < h * 1000000000) (h2 : h * 1000000000 < 625 * c.fClk) : bitOf c h = none := by
  rw [bitOf, if_neg (by omega), if_neg (by omega)]

/-- A LOW up to `LOW_MAX` is a pause (R99). -/
theorem lowClass_goesOn (hl : l ≤ c.lowMax) : lowClass c l = .goesOn := if_pos hl

/-- A LOW of at least 281 microseconds is a latch (R99), `LOW_MAX` being shorter (R10). -/
theorem lowClass_latchLow (hm : c.lowMax * 1000000 < 281 * c.fClk) (hl : 281 * c.fClk ≤ l * 1000000) :
    lowClass c l = .latchLow := by
  rw [lowClass, if_neg (by omega), if_pos hl]

/-- So is every longer one. -/
theorem lowClass_add_latchLow (hm : c.lowMax * 1000000 < 281 * c.fClk) (hk : 281 * c.fClk ≤ k * 1000000) (l : Nat) :
    lowClass c (l + k) = .latchLow :=
  lowClass_latchLow hm (hk.trans (Nat.mul_le_mul_right _ (Nat.le_add_left k l)))

/-- A LOW between the two is neither (R99). -/
theorem lowClass_indeterminate (h1 : c.lowMax < l) (h2 : l * 1000000 < 281 * c.fClk) :
    lowClass c l = .indeterminate := by
  rw [lowClass, if_neg (by omega), if_neg (by omega)]

/-- The HIGH time of a bit reads as the bit. -/
theorem bitOf_highTicks (hc : c.WellFormed) (b : Bool) : bitOf c (highTicks c b) = some b := by
  obtain ⟨-, ⟨hh0, h0, h1, -, -⟩, -⟩ := hc
  cases b with
  | false => exact bitOf_zero hh0 h0
  | true => exact bitOf_one h1

/-- The LOW time of a bit reads as a pause. -/
theorem lowClass_lowTicks (hc : c.WellFormed) (b : Bool) : lowClass c (c.p - highTicks c b) = .goesOn := by
  obtain ⟨⟨hf, -⟩, ⟨hh0, h0, h1, -, hp⟩, -, -, ⟨hlow, -⟩⟩ := hc
  refine lowClass_goesOn ?_
  cases b with
  | false => exact show c.p - c.h0 ≤ c.lowMax by omega
  | true => exact show c.p - c.h1 ≤ c.lowMax by omega

/-- Settles O51: the bounds of R4 to R10 are those of the reading. -/
theorem profileReadsBack : Obligations.ProfileReadsBack := by
  intro c hc
  have hhigh := bitOf_highTicks hc
  have hgap := lowClass_lowTicks hc
  obtain ⟨-, -, ⟨hstream, hclear⟩, -, ⟨hlow, hmax⟩⟩ := hc
  exact ⟨hhigh false, hhigh true, hgap false, hgap true,
    lowClass_goesOn hlow, lowClass_latchLow hmax hstream, lowClass_latchLow hmax hclear,
    fun l k hk => lowClass_add_latchLow hmax hk l, fun l ⟨h1, h2⟩ => by omega⟩

/-- Settles O56: a HIGH time of a 0 is at least one tick, one of a 1 lasts longer than one at 2 MHz, and a LOW
follows. -/
theorem slowestClock : Obligations.SlowestClock := by
  refine ⟨fun c ⟨_, ⟨hh0, h0, h1, _, hp⟩, _⟩ => ⟨by omega, hh0, by omega, by omega⟩, by decide, rfl, rfl, rfl, rfl⟩

/-! ### Indeterminate traces -/

/-- What cannot be read cannot be read after any number of pulses. -/
theorem readPulses_pulses_none (ht : readPulses c t = none) (pulses : List (Nat × Nat)) :
    readPulses c (pulses.flatMap (fun x => [⟨.high, x.1⟩, ⟨.low, x.2⟩]) ++ t) = none := by
  induction pulses with
  | nil => exact ht
  | cons x pulses ih => exact readPulses_pulse_none ih x.1 x.2

/-- An optional idle LOW before pulses and a HIGH is dropped (R98). -/
theorem dropIdle_pulses {idle : Trace} (hi : idle = [] ∨ ∃ k, idle = [⟨.low, k⟩]) (pulses : List (Nat × Nat)) (h : Nat)
    (t : Trace) :
    dropIdle (idle ++ pulses.flatMap (fun x => [⟨.high, x.1⟩, ⟨.low, x.2⟩]) ++ ⟨.high, h⟩ :: t) =
      pulses.flatMap (fun x => [⟨.high, x.1⟩, ⟨.low, x.2⟩]) ++ ⟨.high, h⟩ :: t := by
  obtain rfl | ⟨k, rfl⟩ := hi
  · cases pulses with
    | nil => rfl
    | cons x pulses => rfl
  · rfl

/-- A HIGH and what follows that cannot be read cannot be read after an optional idle LOW and any pulses. -/
theorem readTrace_pulses_none {idle : Trace} (hi : idle = [] ∨ ∃ k, idle = [⟨.low, k⟩])
    (ht : readPulses c (⟨.high, h⟩ :: t) = none) (pulses : List (Nat × Nat)) :
    readTrace c (idle ++ pulses.flatMap (fun x => [⟨.high, x.1⟩, ⟨.low, x.2⟩]) ++ ⟨.high, h⟩ :: t) = none := by
  refine readTrace_none ?_
  rw [dropIdle_pulses hi]
  exact readPulses_pulses_none ht pulses

/-- A pulse whose period is too short (R98). -/
theorem readPulses_shortPeriod (hs : (h + l) * 1000000000 < 1150 * c.fClk) :
    readPulses c (⟨.high, h⟩ :: ⟨.low, l⟩ :: t) = none := by
  rw [readPulses_pulse]
  cases bitOf c h with
  | none => rfl
  | some b => exact if_pos hs

/-- A pulse whose HIGH is no bit (R97). -/
theorem readPulses_noBit (hb : bitOf c h = none) : readPulses c (⟨.high, h⟩ :: ⟨.low, l⟩ :: t) = none := by
  simp only [readPulses_pulse, hb]

/-- A pulse whose LOW is neither a pause nor a latch (R99). -/
theorem readPulses_noLow (hl : lowClass c l = .indeterminate) :
    readPulses c (⟨.high, h⟩ :: ⟨.low, l⟩ :: t) = none := by
  rw [readPulses_pulse, hl]
  cases bitOf c h with
  | none => rfl
  | some b => exact ite_self _

/-- Settles O52: each cause stops the reading where it stands, and the pulses before it do not change that. -/
theorem indeterminateTraces : Obligations.IndeterminateTraces := by
  refine fun c idle ps t pulses h l => ⟨fun ⟨g, hg, hz⟩ => readTrace_undriven hg hz, ?_⟩
  rintro hi rfl
  exact ⟨readTrace_pulses_none hi rfl pulses, fun hs => readTrace_pulses_none hi (readPulses_shortPeriod hs) pulses,
    fun h1 h2 => readTrace_pulses_none hi (readPulses_noBit (bitOf_none h1 h2)) pulses,
    fun h1 h2 => readTrace_pulses_none hi (readPulses_noLow (lowClass_indeterminate h1 h2)) pulses⟩

/-! ### The trace of a byte list -/

/-- The normal form of the pulses of some bits and a latch after them: the last LOW and the latch are one segment. -/
def latchedPulses (c : Config) (k : Nat) : List Bool → Trace
  | [] => latchTrace k
  | [b] => [⟨.high, highTicks c b⟩, ⟨.low, c.p - highTicks c b + k⟩]
  | b :: b' :: bits => ⟨.high, highTicks c b⟩ :: ⟨.low, c.p - highTicks c b⟩ :: latchedPulses c k (b' :: bits)

/-- The normal form of a bit and more starts with the HIGH of the bit. -/
theorem latchedPulses_cons (c : Config) (k : Nat) (b : Bool) (bits : List Bool) :
    ∃ t, latchedPulses c k (b :: bits) = ⟨.high, highTicks c b⟩ :: t := by
  cases bits with
  | nil => exact ⟨_, rfl⟩
  | cons b' bits => exact ⟨_, rfl⟩

/-- The pulses of some bits and a latch have that normal form. -/
theorem normalise_pulses (c : Config) (k : Nat) (bits : List Bool) :
    normalise (bits.flatMap (pulse c) ++ latchTrace k) = latchedPulses c k bits := by
  induction bits with
  | nil => rfl
  | cons b bits ih =>
    change joinSeg _ (joinSeg _ (normalise (bits.flatMap (pulse c) ++ latchTrace k))) = _
    rw [ih]
    cases bits with
    | nil => rfl
    | cons b' bits =>
      obtain ⟨t, ht⟩ := latchedPulses_cons c k b' bits
      rw [latchedPulses, ht]
      rfl

/-- The normal form has no undriven segment. -/
theorem latchedPulses_driven (c : Config) (k : Nat) (bits : List Bool) :
    (latchedPulses c k bits).any (fun g => g.level == .z) = false := by
  induction bits with
  | nil => rfl
  | cons b bits ih =>
    cases bits with
    | nil => rfl
    | cons b' bits => exact ih

/-- A pulse of a well-formed profile is a bit, and the reading goes on after it. -/
theorem readPulses_bit (hc : c.WellFormed) (b : Bool) (t : Trace) :
    readPulses c (⟨.high, highTicks c b⟩ :: ⟨.low, c.p - highTicks c b⟩ :: t) =
      (readPulses c t).map (fun es => .bit b :: es) := by
  have hlt := (highTicks_bounds hc b).2
  have hp : ¬ (highTicks c b + (c.p - highTicks c b)) * 1000000000 < 1150 * c.fClk := by
    obtain ⟨-, ⟨-, -, -, hp, -⟩, -⟩ := hc
    omega
  simp only [readPulses_pulse, bitOf_highTicks hc b, lowClass_lowTicks hc b, if_neg hp]

/-- The last pulse of a well-formed profile, its LOW joined to a latch, is a bit and a latch. -/
theorem readPulses_lastBit (hc : c.WellFormed) (hk : 281 * c.fClk ≤ k * 1000000) (b : Bool) :
    readPulses c [⟨.high, highTicks c b⟩, ⟨.low, c.p - highTicks c b + k⟩] = some [.bit b, .latch] := by
  have hlt := (highTicks_bounds hc b).2
  have hbit := bitOf_highTicks hc b
  obtain ⟨-, ⟨-, -, -, hper, -⟩, -, -, ⟨-, hmax⟩⟩ := hc
  have hp : ¬ (highTicks c b + (c.p - highTicks c b + k)) * 1000000000 < 1150 * c.fClk := by omega
  have hlow : lowClass c (c.p - highTicks c b + k) = .latchLow := lowClass_add_latchLow hmax hk _
  simp only [readPulses_pulse, hbit, hlow, if_neg hp]
  rfl

/-- The normal form of a bit and more reads as the bits and the latch. -/
theorem readPulses_latchedPulses (hc : c.WellFormed) (hk : 281 * c.fClk ≤ k * 1000000) (b : Bool) (bits : List Bool) :
    readPulses c (latchedPulses c k (b :: bits)) = some ((b :: bits).map .bit ++ [.latch]) := by
  induction bits generalizing b with
  | nil => exact readPulses_lastBit hc hk b
  | cons b' bits ih =>
    rw [latchedPulses, readPulses_bit hc, ih b']
    rfl

/-- The events of some bits and a latch after them (R102). -/
def eventsOfBits (bits : List Bool) : List Event := bits.map .bit ++ if bits = [] then [] else [.latch]

/-- The normal form reads as the events of its bits, also after an idle LOW. -/
theorem readTrace_latchedPulses (hc : c.WellFormed) (hk : 281 * c.fClk ≤ k * 1000000) (bits : List Bool) :
    readTrace c (latchedPulses c k bits) = some (eventsOfBits bits) ∧
    ∀ j, readTrace c (joinSeg ⟨.low, j⟩ (latchedPulses c k bits)) = some (eventsOfBits bits) := by
  cases bits with
  | nil => exact ⟨rfl, fun j => rfl⟩
  | cons b bits =>
    have hread := readPulses_latchedPulses hc hk b bits
    have hz := latchedPulses_driven c k (b :: bits)
    obtain ⟨t, ht⟩ := latchedPulses_cons c k b bits
    rw [ht] at hread hz ⊢
    refine ⟨?_, fun j => ?_⟩
    · rw [readTrace, hz]
      exact hread
    · have hj : joinSeg ⟨.low, j⟩ (⟨.high, highTicks c b⟩ :: t) = ⟨.low, j⟩ :: ⟨.high, highTicks c b⟩ :: t := rfl
      have hzj : (⟨.low, j⟩ :: ⟨.high, highTicks c b⟩ :: t : Trace).any (fun g => g.level == .z) = false := hz
      rw [hj, readTrace, hzj]
      exact hread

/-- The trace of a byte list is that of its bits (R95). -/
theorem bytesTrace_eq (c : Config) (bs : List Byte) : bytesTrace c bs = (bs.flatMap bitsOf).flatMap (pulse c) :=
  List.flatMap_assoc.symm

/-- The events of a byte list are those of its bits. -/
theorem eventsOf_eq (bs : List Byte) : eventsOf bs = eventsOfBits (bs.flatMap bitsOf) := by
  cases bs with
  | nil => rfl
  | cons v bs => rfl

/-- Settles O53: the trace is that of the bits of the list, in the normal form that is read. -/
theorem readingRoundTrip : Obligations.ReadingRoundTrip := by
  intro c bs k hc hk
  have hnormal : normalise (bytesTrace c bs ++ latchTrace k) = latchedPulses c k (bs.flatMap bitsOf) := by
    rw [bytesTrace_eq, normalise_pulses]
  obtain ⟨hread, hidle⟩ := readTrace_latchedPulses hc hk (bs.flatMap bitsOf)
  rw [eventsOf_eq, ← hnormal] at *
  exact ⟨hread, hidle⟩

/-! ### Frames, bytes and pixels -/

/-- Bits and the latch after them are one frame (R100). -/
theorem framesFrom_bits (acc bits : List Bool) (h : acc ++ bits ≠ []) :
    framesFrom acc (bits.map .bit ++ [.latch]) = ⟨[acc ++ bits], []⟩ := by
  induction bits generalizing acc with
  | nil =>
    rw [List.append_nil] at h ⊢
    simp [framesFrom, h]
  | cons b bits ih =>
    rw [List.append_cons acc b bits] at h ⊢
    exact ih (acc ++ [b]) h

/-- The events of a byte list that is not empty are one frame of its bits (R100). -/
theorem framesOf_eventsOf {bs : List Byte} (h : bs ≠ []) : framesOf (eventsOf bs) = ⟨[bs.flatMap bitsOf], []⟩ := by
  obtain ⟨v, vs, rfl⟩ := List.exists_cons_of_ne_nil h
  exact framesFrom_bits [] ((v :: vs).flatMap bitsOf) nofun

/-- The bits of a byte make up the byte (R52). -/
theorem byteOfBits_bits (v : Byte) :
    byteOfBits (v.getLsbD 7) (v.getLsbD 6) (v.getLsbD 5) (v.getLsbD 4) (v.getLsbD 3) (v.getLsbD 2) (v.getLsbD 1)
      (v.getLsbD 0) = v := by
  apply BitVec.eq_of_getLsbD_eq
  intro i hi
  change @BitVec.getLsbD (1 + 1 + 1 + 1 + 1 + 1 + 1 + 1) _ i = v.getLsbD i
  simp only [byteOfBits, BitVec.getLsbD_append]
  interval_cases i <;> simp

/-- The bits of a byte list group back into its bytes (R100). -/
theorem bytesOfBits_bits (bs : List Byte) : bytesOfBits (bs.flatMap bitsOf) = (bs, []) := by
  induction bs with
  | nil => rfl
  | cons v bs ih =>
    change (byteOfBits _ _ _ _ _ _ _ _ :: (bytesOfBits (bs.flatMap bitsOf)).1, (bytesOfBits (bs.flatMap bitsOf)).2) = _
    rw [ih, byteOfBits_bits]

/-- A receiver of the same wire order reads the pixel that was sent (R53, R100). -/
theorem unwire3_wire3 (o : WireOrder) (x : Pixel) : unwire3 o (wire3 o x) = x := by
  cases o <;> rfl

/-- The wire bytes of a list of pixels group back into the pixels (R100). -/
theorem pixelsOfBytes_pixels (o : WireOrder) (xs : List Pixel) :
    pixelsOfBytes o (xs.flatMap (fun x => (wire3 o x).toList)) = (xs, []) := by
  induction xs with
  | nil => rfl
  | cons x xs ih =>
    change (unwire3 o (wire3 o x) :: (pixelsOfBytes o (xs.flatMap (fun x => (wire3 o x).toList))).1,
      (pixelsOfBytes o (xs.flatMap (fun x => (wire3 o x).toList))).2) = _
    rw [ih, unwire3_wire3]

/-- Settles O54: the frame is the bits of the wire bytes, which group back into the bytes and these into the pixels. -/
theorem pixelsReadBack : Obligations.PixelsReadBack := by
  intro o xs hxs
  have hne : xs.flatMap (fun x => (wire3 o x).toList) ≠ [] := by
    obtain ⟨x, xs, rfl⟩ := List.exists_cons_of_ne_nil hxs
    nofun
  refine ⟨_, framesOf_eventsOf hne, ?_⟩
  rw [readFrame, bytesOfBits_bits, pixelsOfBytes_pixels]

end Sys2Proof.Machine
end

section
/-! PROOFS. Stretches of a run: what some ticks in a row leave, put on the pad, read of `BUF` and find the block doing
(spec/00_scope.md rule R15, spec/20_memory.md rule R57, spec/43_string_controller.md rule R184). -/

namespace Sys2Proof.Machine

variable {s t u : State} {j k : Nat} {P Q : State → Prop} {pads pads' : List Level} {reads reads' : List (Nat × Nat)}

/-! ### Runs with nothing to come -/

/-- A run and what follows it, whether or not that goes through. -/
theorem runSteps_add_eq (h : runSteps j s = some t) (k : Nat) : runSteps (j + k) s = runSteps k t := by
  induction j generalizing s with
  | zero =>
    cases h
    rw [Nat.zero_add]
  | succ j ih =>
    obtain ⟨v, hv, hr⟩ := runSteps_succ_inv h
    rw [show j + 1 + k = (j + k) + 1 by omega, runSteps_succ hv]
    exact ih hr

/-- The beginning of a run that goes through goes through. -/
theorem runSteps_of_le (hjk : j ≤ k) (h : runSteps k s = some t) : ∃ u, runSteps j s = some u := by
  induction j generalizing s k with
  | zero => exact ⟨s, rfl⟩
  | succ j ih =>
    obtain ⟨k, rfl⟩ := Nat.exists_eq_succ_of_ne_zero (show k ≠ 0 by omega)
    obtain ⟨v, hv, hr⟩ := runSteps_succ_inv h
    obtain ⟨u, hu⟩ := ih (by omega) hr
    exact ⟨u, (runSteps_succ hv j).trans hu⟩

/-- With nothing to come there is nothing to take off the list. -/
theorem popMove_of_nil (hm : s.moves = []) : s.popMove = s := by
  change { s with moves := s.moves.tail } = s
  rw [hm, List.tail_nil, ← hm]

/-- With nothing to come a step is a plain tick, and nothing is to come after it. -/
theorem tick_of_plain_step (hm : s.moves = []) (h : step s = .next t) :
    tick false false s = .next t ∧ t.moves = [] := by
  obtain ⟨-, -, hrun⟩ := step_cases h
  rw [nextMove_nil hm, popMove_of_nil hm] at hrun
  obtain ⟨-, -, hmoves⟩ := tick_frame hrun
  exact ⟨hrun, hmoves.trans hm⟩

/-- With nothing to come every step is a tick and has a pad level. -/
theorem length_padTrace (hm : s.moves = []) (h : runSteps k s = some t) : (padTrace k s).length = k := by
  induction k generalizing s with
  | zero => rfl
  | succ k ih =>
    obtain ⟨v, hv, hr⟩ := runSteps_succ_inv h
    rw [padTrace_tick (nextMove_nil hm) hv, List.length_cons, ih (tick_of_plain_step hm hv).2 hr]

/-- The pad levels of the beginning of a run are the beginning of its pad levels. -/
theorem padTrace_take (hm : s.moves = []) (hjk : j ≤ k) (h : runSteps k s = some t) :
    padTrace j s = (padTrace k s).take j := by
  obtain ⟨u, hu⟩ := runSteps_of_le hjk h
  obtain ⟨d, rfl⟩ := Nat.exists_eq_add_of_le hjk
  rw [padTrace_add hu, List.take_left' (length_padTrace hm hu)]

/-! ### The reads of `BUF` -/

/-- The reads of `BUF` in the first `k` ticks of a run with nothing to come: the tick and the index of each. -/
def bufReads (k : Nat) (s : State) : List (Nat × Nat) :=
  (List.range k).filterMap
    (fun k => (runSteps k s).bind (fun t => (t.bufAddr false false).map (fun a => (k, a.toNat))))

/-- A read, so many ticks later. -/
def later (j : Nat) (x : Nat × Nat) : Nat × Nat := (j + x.1, x.2)

/-- The reads of a run and then another. -/
theorem bufReads_add (h : runSteps j s = some t) (k : Nat) :
    bufReads (j + k) s = bufReads j s ++ (bufReads k t).map (later j) := by
  simp only [bufReads, List.range_add, List.filterMap_append, List.filterMap_map, List.map_filterMap]
  congr 1
  refine List.filterMap_congr fun i _ => ?_
  simp only [Function.comp_apply, runSteps_add_eq h]
  cases runSteps i t with
  | none => rfl
  | some u => cases hb : u.bufAddr false false <;> simp [later, hb]

/-- The read of one tick. -/
theorem bufReads_one (s : State) :
    bufReads 1 s = ((s.bufAddr false false).map (fun a => (0, a.toNat))).toList := by
  cases hb : s.bufAddr false false <;> simp [bufReads, hb]

/-! ### Stretches -/

/-- From `s` the next `k` steps lead to `t`; they put `pads` on the pad, make the reads `reads` of `BUF`, and start from
states with the property `P`. -/
structure Stretch (P : State → Prop) (k : Nat) (s t : State) (pads : List Level) (reads : List (Nat × Nat)) : Prop where
  ends : runSteps k s = some t
  pads : padTrace k s = pads
  reads : bufReads k s = reads
  during : ∀ j, j < k → ∃ u, runSteps j s = some u ∧ P u

/-- No step. -/
theorem Stretch.nil (P : State → Prop) (s : State) : Stretch P 0 s s [] [] where
  ends := rfl
  pads := rfl
  reads := rfl
  during := nofun

/-- One plain tick. -/
theorem Stretch.single (hm : s.moves = []) (h : step s = .next t) (hP : P s) :
    Stretch P 1 s t [s.pad] ((s.bufAddr false false).map (fun a => (0, a.toNat))).toList where
  ends := runSteps_succ h 0
  pads := padTrace_tick (nextMove_nil hm) h 0
  reads := bufReads_one s
  during := fun j hj => ⟨s, by rw [Nat.lt_one_iff.1 hj]; rfl, hP⟩

/-- A stretch and then another. -/
theorem Stretch.trans (h : Stretch P j s t pads reads) (h' : Stretch P k t u pads' reads') :
    Stretch P (j + k) s u (pads ++ pads') (reads ++ reads'.map (later j)) where
  ends := runSteps_add h.ends h'.ends
  pads := by rw [padTrace_add h.ends, h.pads, h'.pads]
  reads := by rw [bufReads_add h.ends, h.reads, h'.reads]
  during := by
    intro i hi
    by_cases hij : i < j
    · exact h.during i hij
    · obtain ⟨d, rfl⟩ := Nat.exists_eq_add_of_le (Nat.le_of_not_lt hij)
      rw [runSteps_add_eq h.ends]
      exact h'.during d (by omega)

/-- What its states have they have. -/
theorem Stretch.mono (h : Stretch P k s t pads reads) (hPQ : ∀ u, P u → Q u) : Stretch Q k s t pads reads where
  ends := h.ends
  pads := h.pads
  reads := h.reads
  during := fun j hj => (h.during j hj).imp fun u hu => ⟨hu.1, hPQ u hu.2⟩

/-- The states that are written down one for each tick, none of which reads `BUF`. -/
theorem Stretch.iterate {f : Nat → State} (hm : ∀ m, m < k → (f m).moves = [])
    (hstep : ∀ m, m < k → step (f m) = .next (f (m + 1))) (hP : ∀ m, m < k → P (f m))
    (hread : ∀ m, m < k → (f m).bufAddr false false = none) :
    Stretch P k (f 0) (f k) ((List.range k).map (fun m => (f m).pad)) [] := by
  induction k with
  | zero => exact Stretch.nil P (f 0)
  | succ k ih =>
    have hinit := ih (fun m h => hm m (by omega)) (fun m h => hstep m (by omega)) (fun m h => hP m (by omega))
      (fun m h => hread m (by omega))
    have hlast := Stretch.single (P := P) (hm k (by omega)) (hstep k (by omega)) (hP k (by omega))
    rw [hread k (by omega)] at hlast
    rw [List.range_succ, List.map_append]
    exact hinit.trans hlast

/-! ### A block that rests, and a latch period -/

/-- An idle block to which nothing is offered rests. -/
theorem stretch_idle (hq : s.quiet) (hc : s.cfg.WellFormed) (hp : s.ph = .idle) (k : Nat) :
    Stretch (fun _ => True) k s s (List.replicate k s.pad) [] := by
  have ⟨hr, ho, hm⟩ := hq
  have hstep : step s = .next s := by
    rw [step_idle ⟨hr, hc, nextMove_nil hm⟩ hp ho, popMove_of_nil hm]
  have hread : s.bufAddr false false = none := by
    simp [State.bufAddr, hp, commandTaken_none (.inl ho)]
  have h := Stretch.iterate (P := fun _ => True) (f := fun _ => s) (k := k) (fun _ _ => hm) (fun _ _ => hstep)
    (fun _ _ => trivial) (fun _ _ => hread)
  rwa [List.map_const', List.length_range] at h

/-- The latch period of a quiet block, from its beginning: the pad is LOW and the block busy, and then it is idle. -/
theorem stretch_latch (hq : s.quiet) (hc : s.cfg.WellFormed) (hp : s.ph = .latched) (hl : s.lcnt = 0) :
    Stretch (fun u => u.ph = .latched) s.latchLen s (State.enterIdle { s with lcnt := 0, doLatch := false })
      (List.replicate s.latchLen s.pad) [] := by
  have ⟨hr, ho, hm⟩ := hq
  obtain ⟨n, hn⟩ := Nat.exists_eq_add_of_le' (latchLen_pos hc)
  have hstart : { s with lcnt := 0 } = s := by rw [← hl]
  have hinside := Stretch.iterate (P := fun u => u.ph = .latched) (f := fun m => { s with lcnt := m }) (k := n)
    (fun _ _ => hm)
    (fun m hmn => by
      rw [step_latched_plain (s := { s with lcnt := m }) hr hc hm hp,
        latchTick_inside (s := { s with lcnt := m }) (show m + 1 < s.latchLen by omega)])
    (fun _ _ => hp) (fun m _ => bufAddr_latched (s := { s with lcnt := m }) hp _ _)
  have hlast : step { s with lcnt := n } = .next (State.enterIdle { s with lcnt := 0, doLatch := false }) := by
    rw [step_latched_plain (s := { s with lcnt := n }) hr hc hm hp,
      latchTick_last (s := { s with lcnt := n }) (show s.latchLen ≤ n + 1 by omega)]
  have hend := Stretch.single (P := fun u => u.ph = .latched) (s := { s with lcnt := n }) hm hlast hp
  rw [bufAddr_latched (s := { s with lcnt := n }) hp] at hend
  have hpads : (List.range n).map (fun m => State.pad { s with lcnt := m }) ++ [State.pad { s with lcnt := n }] =
      List.replicate (n + 1) s.pad := by
    change (List.range n).map (fun _ => s.pad) ++ [s.pad] = _
    rw [List.map_const', List.length_range, List.replicate_succ']
  have h := hinside.trans hend
  rwa [hpads, hstart, ← hn] at h

end Sys2Proof.Machine
end

section
/-! PROOFS. A quiet block that transmits: the stretch of one bit, of one byte, and of all the bytes that its source
gives (spec/40_bit_encoder.md rules R116, R117 and R121, spec/10_state.md rule R24). -/

namespace Sys2Proof.Machine

variable {s t : State} {P : State → Prop}

/-- A quiet block at the first tick of a bit. -/
structure State.Sending (s : State) : Prop where
  quiet : s.quiet
  wf : s.cfg.WellFormed
  ph : s.ph = .transmitting
  oe : s.oe = true
  tcnt : s.tcnt = 0
  dout : s.dout = true

/-- What the states during such a stretch have in common: the phase, and `IE` as it was. -/
def Pulsing (ie : Bool) (u : State) : Prop := u.ph = .transmitting ∧ u.ie = ie

/-! ### One bit -/

/-- The state at tick `m` of the bit whose first tick is `s`. -/
def State.atTick (s : State) (m : Nat) : State := { s with tcnt := m, dout := decide (m < highTicks s.cfg s.wireBit) }

theorem State.Sending.atTick_zero (hs : s.Sending) : s.atTick 0 = s := by
  have hpos := (highTicks_bounds hs.wf s.wireBit).1
  rw [State.atTick, decide_eq_true hpos, ← hs.dout, ← hs.tcnt]

/-- The pad during a bit: HIGH for the HIGH time of the bit, then LOW. -/
theorem State.Sending.pad_atTick (hs : s.Sending) (m : Nat) :
    (s.atTick m).pad = if m < highTicks s.cfg s.wireBit then .high else .low := by
  rw [pad_init (s := s.atTick m) hs.oe]
  simp [State.atTick]

/-- A tick inside the bit. -/
theorem State.Sending.step_atTick (hs : s.Sending) {m : Nat} (hm : m + 1 < s.cfg.p) :
    step (s.atTick m) = .next (s.atTick (m + 1)) := by
  obtain ⟨hr, -, hmoves⟩ := hs.quiet
  rw [step_transmitting_plain (s := s.atTick m) hr hs.wf hmoves hs.ph, txTick_inside (s := s.atTick m) hm]
  exact congrArg (fun d => Host.Outcome.next { s with tcnt := m + 1, dout := d }) (dout_next m _)

/-- The block with its pin LOW, as it is at the end of a bit. -/
def State.pinLow (s : State) : State := { s with dout := false }

/-- The last tick of the bit is `bit_end()` with the pin LOW. -/
theorem State.Sending.step_lastTick (hs : s.Sending) {m : Nat} (hm : m + 1 = s.cfg.p) :
    step (s.atTick m) = outcomeOf s.pinLow.bitEnd := by
  obtain ⟨hr, -, hmoves⟩ := hs.quiet
  have hlow : ¬ m < highTicks s.cfg s.wireBit := by
    have := (highTicks_bounds hs.wf s.wireBit).2
    omega
  rw [step_transmitting_plain (s := s.atTick m) hr hs.wf hmoves hs.ph, txTick_last (s := s.atTick m) hm.ge,
    State.atTick, decide_eq_false hlow, State.pinLow, ← hs.tcnt]

/-- The block reads no byte of `BUF` inside a bit. -/
theorem State.Sending.bufAddr_inside (hs : s.Sending) {m : Nat} (hm : m + 1 < s.cfg.p) :
    (s.atTick m).bufAddr false false = none := by
  simp [State.bufAddr, State.lastTickOfByte, State.lastTickOfBit, State.atTick, hs.ph, Nat.not_le.2 hm]

/-- The index that the last tick of a bit reads, if it reads one. -/
def State.nextRead (s : State) : Option Count :=
  if s.bitn.toNat ≤ 1 ∧ s.srck = .buf ∧ s.rem ≠ 0 then some s.idx else none

theorem State.Sending.bufAddr_lastTick (hs : s.Sending) {m : Nat} (hm : m + 1 = s.cfg.p) :
    (s.atTick m).bufAddr false false = s.nextRead := by
  simp [State.bufAddr, State.lastTickOfByte, State.lastTickOfBit, State.effectiveHold, State.atTick, State.nextRead,
    hs.ph, hm.ge, and_assoc]

/-- `n` ticks of which the first `h` are HIGH. -/
theorem map_range_levels {h n : Nat} (hn : h ≤ n) :
    (List.range n).map (fun m => if m < h then Level.high else .low) =
      List.replicate h .high ++ List.replicate (n - h) .low := by
  obtain ⟨d, rfl⟩ := Nat.exists_eq_add_of_le hn
  rw [Nat.add_sub_cancel_left, List.range_add, List.map_append, List.map_map]
  congr 1
  · exact List.eq_replicate_iff.2 ⟨by simp, by simp +contextual⟩
  · exact List.eq_replicate_iff.2 ⟨by simp, by simp⟩

/-- The stretch of one bit: its pulse, and the read of the last tick. -/
theorem State.Sending.stretch_bit (hs : s.Sending) (he : s.pinLow.bitEnd = .ok t) :
    Stretch (Pulsing s.ie) s.cfg.p s t (expand (pulse s.cfg s.wireBit))
      ((s.nextRead.map (fun a => (s.cfg.p - 1, a.toNat))).toList) := by
  obtain ⟨-, hlt⟩ := highTicks_bounds hs.wf s.wireBit
  obtain ⟨n, hn⟩ := Nat.exists_eq_add_of_le' (show 1 ≤ s.cfg.p by omega)
  obtain ⟨-, -, hmoves⟩ := hs.quiet
  have hinside := Stretch.iterate (P := Pulsing s.ie) (f := s.atTick) (k := n) (fun _ _ => hmoves)
    (fun m hm => hs.step_atTick (by omega)) (fun _ _ => ⟨hs.ph, rfl⟩) (fun m hm => hs.bufAddr_inside (by omega))
  have hlast := Stretch.single (P := Pulsing s.ie) (s := s.atTick n) hmoves
    ((hs.step_lastTick hn.symm).trans (congrArg outcomeOf he)) ⟨hs.ph, rfl⟩
  rw [hs.bufAddr_lastTick hn.symm] at hlast
  have hpads : (List.range n).map (fun m => (s.atTick m).pad) ++ [(s.atTick n).pad] =
      expand (pulse s.cfg s.wireBit) := by
    rw [← List.map_singleton (f := fun m => (s.atTick m).pad), ← List.map_append, ← List.range_succ]
    simp only [hs.pad_atTick]
    rw [Nat.succ_eq_add_one, ← hn, map_range_levels hlt.le]
    simp [expand, pulse]
  have hreads : [] ++ ((s.nextRead.map (fun a => (0, a.toNat))).toList).map (later n) =
      (s.nextRead.map (fun a => (s.cfg.p - 1, a.toNat))).toList := by
    cases s.nextRead with
    | none => rfl
    | some a => simp [later, hn]
  have h := hinside.trans hlast
  rwa [hpads, hreads, hs.atTick_zero, ← hn] at h

/-! ### One byte -/

/-- The pad levels of two traces in a row. -/
theorem expand_append (a b : Trace) : expand (a ++ b) = expand a ++ expand b := List.flatMap_append

/-- The first `n` bits of a byte on the wire (R52). -/
def topBits : Nat → Byte → List Bool
  | 0, _ => []
  | n + 1, v => v.getLsbD 7 :: topBits n (v <<< 1)

/-- The next bit of the byte is the first tick of a bit. -/
theorem State.Sending.nextBit (hs : s.Sending) : s.nextBit.Sending where
  quiet := hs.quiet
  wf := hs.wf
  ph := hs.ph
  oe := hs.oe
  tcnt := hs.tcnt
  dout := rfl

/-- The state at the first tick of the last bit of the byte, `n` bits after `s`. -/
def State.atLastBit (s : State) (n : Nat) : State := { s with sr := s.sr <<< n, bitn := 1 }

theorem State.Sending.atLastBit (hs : s.Sending) (n : Nat) : (s.atLastBit n).Sending where
  quiet := hs.quiet
  wf := hs.wf
  ph := hs.ph
  oe := hs.oe
  tcnt := hs.tcnt
  dout := hs.dout

/-- The stretch of the bits of a byte before its last. -/
theorem State.Sending.stretch_bits {n : Nat} (hs : s.Sending) (hb : s.bitn.toNat = n + 1) :
    Stretch (Pulsing s.ie) (n * s.cfg.p) s (s.atLastBit n) (expand ((topBits n s.sr).flatMap (pulse s.cfg))) [] := by
  induction n generalizing s with
  | zero =>
    have hend : s.atLastBit 0 = s := by
      have hone : s.bitn = 1 := BitVec.eq_of_toNat_eq hb
      rw [State.atLastBit, BitVec.shiftLeft_zero, ← hone]
    rw [hend, Nat.zero_mul]
    exact Stretch.nil _ s
  | succ n ih =>
    have hmore : s.pinLow.bitEnd = .ok s.nextBit := bitEnd_more (s := s.pinLow) (show 1 < s.bitn.toNat by omega)
    have hfirst := hs.stretch_bit hmore
    have hnone : s.nextRead = none := if_neg fun h => by omega
    have hcount : s.nextBit.bitn.toNat = n + 1 := by
      rw [State.nextBit_bitn, toNat_sub_one (by omega)]
      omega
    have hrest := ih hs.nextBit hcount
    have hend : s.nextBit.atLastBit n = s.atLastBit (n + 1) := by
      simp only [State.atLastBit, State.nextBit, ← BitVec.shiftLeft_add, Nat.add_comm 1, hs.dout]
    have h := hfirst.trans hrest
    rw [hnone, hend, ← expand_append] at h
    rw [Nat.succ_mul, Nat.add_comm]
    exact h

/-- The index that a byte reads in its last tick, if it reads one. -/
def State.nextByteRead (s : State) : Option Count := if s.srck = .buf ∧ s.rem ≠ 0 then some s.idx else none

/-- The bits of a byte are the bits before its last, and its last. -/
theorem topBits_seven (v : Byte) : topBits 7 v ++ [(v <<< 7).getLsbD 7] = bitsOf v := by
  simp [topBits, bitsOf, ← BitVec.shiftLeft_add]

/-- The stretch of one byte: its pulses, and the read of its last tick. -/
theorem State.Sending.stretch_byte (hs : s.Sending) (hb : s.bitn = 8)
    (he : (s.atLastBit 7).pinLow.bitEnd = .ok t) :
    Stretch (Pulsing s.ie) (8 * s.cfg.p) s t (expand (byteTrace s.cfg s.sr))
      ((s.nextByteRead.map (fun a => (8 * s.cfg.p - 1, a.toNat))).toList) := by
  have hinit := hs.stretch_bits (n := 7) (by rw [hb]; rfl)
  have hlast := (hs.atLastBit 7).stretch_bit he
  have hread : (s.atLastBit 7).nextRead = s.nextByteRead :=
    if_congr (and_iff_right (show (1 : BitVec 4).toNat ≤ 1 by decide)) rfl rfl
  have hp := (highTicks_bounds hs.wf false).2
  have hreads : [] ++ ((s.nextByteRead.map (fun a => (s.cfg.p - 1, a.toNat))).toList).map (later (7 * s.cfg.p)) =
      (s.nextByteRead.map (fun a => (8 * s.cfg.p - 1, a.toNat))).toList := by
    have hlast : 7 * s.cfg.p + (s.cfg.p - 1) = 8 * s.cfg.p - 1 := by omega
    cases s.nextByteRead with
    | none => rfl
    | some a => simp [later, hlast]
  have hpads : (topBits 7 s.sr).flatMap (pulse s.cfg) ++ pulse s.cfg (s.atLastBit 7).wireBit =
      byteTrace s.cfg s.sr := by
    rw [byteTrace, ← topBits_seven, List.flatMap_append, List.flatMap_singleton]
    rfl
  have h := hinit.trans hlast
  rw [← expand_append, hread] at h
  have hlength : 7 * s.cfg.p + s.cfg.p = 8 * s.cfg.p := by omega
  rw [← hpads, ← hreads, ← hlength]
  exact h

/-! ### The bytes of a source -/

/-- The bytes that the source of a block has still to give (R24). -/
def State.pending (s : State) : List Byte :=
  match s.srck with
  | .imm => [s.imm.extractLsb' 16 8, s.imm.extractLsb' 8 8].take s.rem.toNat
  | .buf => (List.range s.rem.toNat).map (fun j => s.buf.get (s.idx.toNat + j))
  | .zero => List.replicate s.rem.toNat 0

/-- The source can give them: at most two immediates, and bytes that `BUF` has (R38, R41). -/
def State.SourceOk (s : State) : Prop :=
  (s.srck = .imm → s.rem.toNat ≤ 2) ∧ (s.srck = .buf → s.idx.toNat + s.rem.toNat ≤ bufSize)

/-- The bytes to come are as many as `REM` says. -/
theorem length_pending (h : s.SourceOk) : s.pending.length = s.rem.toNat := by
  obtain ⟨himm, -⟩ := h
  unfold State.pending
  split
  · simpa using himm ‹_›
  · simp
  · simp

/-- After a byte the next of two immediates stands at the top (R24). -/
theorem imm_shifted (imm : Immediate) :
    (imm.extractLsb' 0 16 ++ 0#8).extractLsb' 16 8 = imm.extractLsb' 8 8 :=
  (BitVec.extractLsb'_append_eq_of_le (by decide)).trans (BitVec.extractLsb'_extractLsb'_of_le (by decide))

/-- The next byte of the source is the first of those to come, and the others are to come after it. -/
theorem nextByte_pending (h : s.SourceOk) (hr : 0 < s.rem.toNat) :
    ∃ b u, s.nextByte = .ok (b, u) ∧ s.pending = b :: u.pending ∧ u.SourceOk ∧
      (s.srck = .buf → u.idx.toNat = s.idx.toNat + 1) := by
  obtain ⟨himm, hbuf⟩ := h
  have hrem := toNat_sub_one hr
  obtain ⟨n, hn⟩ := Nat.exists_eq_add_of_le' hr
  rw [hn, Nat.add_sub_cancel] at hrem
  cases hs : s.srck with
  | imm =>
    refine ⟨_, _, nextByte_imm hs, ?_, ⟨fun _ => ?_, fun h => ?_⟩, nofun⟩
    · have hle : n = 0 ∨ n = 1 := by
        have := himm hs
        omega
      simp only [State.pending, hs, hn, hrem, imm_shifted]
      obtain rfl | rfl := hle <;> rfl
    · have := himm hs
      change (s.rem - 1).toNat ≤ 2
      omega
    · cases hs.symm.trans h
  | buf =>
    have hidx := hbuf hs
    have hlt : s.idx.toNat < bufSize := by omega
    have hnext := count_add_one_toNat hlt
    refine ⟨_, _, nextByte_buf hs (bufRead_some s.buf hlt), ?_, ⟨fun h => ?_, fun _ => ?_⟩, fun _ => hnext⟩
    · simp only [State.pending, hs, hn, hrem, hnext]
      rw [List.range_succ_eq_map, List.map_cons, List.map_map]
      congr 1
      exact List.map_congr_left fun j _ => congrArg s.buf.get (by simp only [Nat.succ_eq_add_one]; omega)
    · cases hs.symm.trans h
    · change (s.idx + 1).toNat + (s.rem - 1).toNat ≤ bufSize
      omega
  | zero =>
    refine ⟨_, _, nextByte_zero hs, ?_, ⟨fun h => ?_, fun h => ?_⟩, nofun⟩
    · simp only [State.pending, hs, hn, hrem]
      rfl
    · cases hs.symm.trans h
    · cases hs.symm.trans h

/-- The reads of `BUF` from the first byte on: one in the last tick of each byte that another one follows (R57). -/
def State.sourceReads (s : State) : List (Nat × Nat) :=
  if s.srck = .buf then (List.range s.rem.toNat).map (fun j => (8 * s.cfg.p * (j + 1) - 1, s.idx.toNat + j)) else []

/-- What is left of a block that has sent its last byte: the end of the bytes, its source used up and its pin LOW. -/
def State.Sent (s t : State) : Prop :=
  t = { s.endOfBytes with sr := t.sr, imm := t.imm, idx := t.idx, rem := 0, dout := false }

/-- With no byte to come the source makes no read. -/
theorem no_reads (hr : s.rem = 0) : s.nextByteRead = none ∧ s.sourceReads = [] := by
  constructor
  · exact if_neg fun h => h.2 hr
  · simp [State.sourceReads, hr]

/-- The read for the next byte and those after it. -/
theorem sourceReads_next {u : State} {n : Nat} (hp : 0 < s.cfg.p) (hn : s.rem.toNat = n + 1) (hrem : u.rem.toNat = n)
    (hcfg : u.cfg = s.cfg) (hsrck : u.srck = s.srck) (hidx : s.srck = .buf → u.idx.toNat = s.idx.toNat + 1) :
    (s.nextByteRead.map (fun a => (8 * s.cfg.p - 1, a.toNat))).toList ++ u.sourceReads.map (later (8 * s.cfg.p)) =
      s.sourceReads := by
  have hne : s.rem ≠ 0 := fun h => by simp [h] at hn
  by_cases hs : s.srck = .buf
  · simp only [State.nextByteRead, State.sourceReads, hs, hsrck, hn, hrem, hcfg, hidx hs, hne, ne_eq, not_false_eq_true,
      and_self, if_true, List.range_succ_eq_map, List.map_cons, List.map_map]
    refine congrArg₂ List.cons (by simp) (List.map_congr_left fun j _ => ?_)
    have hpos : 0 < 8 * s.cfg.p * (j + 1) := by positivity
    have hnext : 8 * s.cfg.p * (j + 1 + 1) = 8 * s.cfg.p * (j + 1) + 8 * s.cfg.p := Nat.mul_succ _ _
    simp only [Function.comp_apply, later, Nat.succ_eq_add_one, Prod.mk.injEq]
    omega
  · simp [State.nextByteRead, State.sourceReads, hs, hsrck]

/-- The stretch of a byte and of all that its source has still to give. -/
theorem State.Sending.stretch_bytes {n : Nat} (hs : s.Sending) (hb : s.bitn = 8) (hok : s.SourceOk)
    (hn : s.rem.toNat = n) :
    ∃ t, Stretch (Pulsing s.ie) (8 * s.cfg.p * (n + 1)) s t (expand (bytesTrace s.cfg (s.sr :: s.pending)))
      s.sourceReads ∧ s.Sent t := by
  have hbit : (1 : BitVec 4).toNat ≤ 1 := by decide
  induction n generalizing s with
  | zero =>
    have hr : s.rem = 0 := BitVec.eq_of_toNat_eq hn
    have hlast := hs.stretch_byte hb (bitEnd_last (s := (s.atLastBit 7).pinLow) hbit hr)
    obtain ⟨hread, hreads⟩ := no_reads hr
    have hnil : s.pending = [] := List.eq_nil_of_length_eq_zero ((length_pending hok).trans hn)
    rw [hread] at hlast
    rw [hreads, hnil, Nat.mul_one, bytesTrace, List.flatMap_singleton]
    refine ⟨_, hlast, ?_⟩
    rw [State.Sent, endOfBytes_eq, endOfBytes_eq]
    simp only [State.atLastBit, State.pinLow, hr]
  | succ n ih =>
    have hpos : 0 < s.rem.toNat := by omega
    obtain ⟨b, u, hu, hpending, hok', hidx⟩ := nextByte_pending (s := (s.atLastBit 7).pinLow) hok
      hpos
    have hu' := nextByte_frame hu
    have hrem : u.rem.toNat = n := by
      rw [hu']
      change (s.rem - 1).toNat = n
      rw [toNat_sub_one hpos]
      omega
    have hfirst := hs.stretch_byte hb (bitEnd_next (s := (s.atLastBit 7).pinLow) hbit hpos hu)
    have hsend : (u.loadByte b).Sending := by
      rw [hu']
      exact ⟨hs.quiet, hs.wf, hs.ph, hs.oe, hs.tcnt, rfl⟩
    have hcfg : u.cfg = s.cfg := by rw [hu']; rfl
    have hsrck : u.srck = s.srck := by rw [hu']; rfl
    have hie : u.ie = s.ie := by rw [hu']; rfl
    obtain ⟨t, hrest, hsent⟩ := ih hsend rfl hok' hrem
    replace hrest : Stretch (Pulsing s.ie) (8 * s.cfg.p * (n + 1)) (u.loadByte b) t
        (expand (bytesTrace s.cfg (b :: u.pending))) u.sourceReads := by
      rw [← hie, ← hcfg]
      exact hrest
    have hpads : expand (bytesTrace s.cfg (s.sr :: s.pending)) =
        expand (byteTrace s.cfg s.sr) ++ expand (bytesTrace s.cfg (b :: u.pending)) := by
      rw [← expand_append, ← hpending]
      rfl
    have hp : 0 < s.cfg.p := Nat.zero_lt_of_lt (highTicks_bounds hs.wf false).2
    refine ⟨t, ?_, ?_⟩
    · rw [Nat.mul_succ, Nat.add_comm, hpads, ← sourceReads_next hp hn hrem hcfg hsrck hidx]
      exact hfirst.trans hrest
    · rw [State.Sent, endOfBytes_eq] at hsent ⊢
      rw [hu'] at hsent
      exact hsent

end Sys2Proof.Machine
end

section
/-! PROOFS. A whole command with nothing holding it: acceptance, its bytes, its latch (spec/40_bit_encoder.md rule R121,
spec/70_reset_and_hazards.md rule R246). -/

namespace Sys2Proof.Machine

variable {s t u v a : State} {i : Instr} {b : Byte}

/-! ### Acceptance -/

/-- The state in which a command finds the block: its word taken off the port, its tick off the list. -/
def State.accepted (s : State) : State := s.popMove.takeOffer

/-- The accept tick of an offered command. -/
theorem step_offered (hc : s.cfg.WellFormed) (ho : s.offered i) : step s = exec i s.accepted := by
  obtain ⟨hr, hp, -, hm, hw, hi, -⟩ := ho
  exact step_command ⟨hr, hc, nextMove_nil hm⟩ hp hw (decodeOfEncode i hi)

theorem quiet_accepted (ho : s.offered i) : s.accepted.quiet := by
  obtain ⟨hr, -, -, hm, -⟩ := ho
  exact ⟨hr, rfl, by simp [State.accepted, hm]⟩

/-- The pad of an idle, initialised block is LOW. -/
theorem pad_offered (h : s.Inv) (ho : s.offered i) : s.pad = .low := by
  obtain ⟨-, hp, hoe, -⟩ := ho
  obtain ⟨-, hdout, -⟩ := (inv_idle_iff hp).1 h
  rw [pad_init hoe, hdout]
  rfl

/-- The block has what it had when the command was accepted: its surroundings are quiet, its pin is initialised and LOW,
the guard is free and `IE` as it was. -/
structure State.Restored (s v : State) : Prop where
  quiet : v.quiet
  cfg : v.cfg = s.cfg
  oe : v.oe = true
  dout : v.dout = false
  guard : v.guard = false
  ie : v.ie = s.ie
  buf : v.buf = s.buf
  timingFault : v.timingFault = s.timingFault

/-- The bytes of the command are sent, and its latch, if it has one, begins. -/
def State.BytesSent (s : State) (i : Instr) (v : State) : Prop :=
  s.Restored v ∧
    ((v.ph = .idle ∧ v.borrowed = 0 ∧ latchOf s.cfg i = 0) ∨
      (v.ph = .latched ∧ v.lcnt = 0 ∧ v.latchLen = latchOf s.cfg i))

/-- The reads of `BUF` that a command makes after its accept tick (R57). -/
def commandReads (c : Config) : Instr → List (Nat × Nat)
  | .sendStream len => (List.range (len.toNat - 1)).map (fun j => (8 * c.p * (j + 1) - 1, 1 + j))
  | _ => []

/-- The command `i`, accepted in `s`, has set everything up to start with the byte `b`. -/
structure State.Prepares (s : State) (i : Instr) (a : State) (b : Byte) : Prop where
  quiet : a.quiet
  cfg : a.cfg = s.cfg
  oe : a.oe = true
  buf : a.buf = s.buf
  timingFault : a.timingFault = s.timingFault
  ie : (if a.guard then a.savedIe else a.ie) = s.ie
  source : a.SourceOk
  bytes : b :: a.pending = wireBytes s i
  reads : a.sourceReads = commandReads s.cfg i
  latch : (a.doLatch = false ∧ latchOf s.cfg i = 0) ∨ (a.doLatch = true ∧ a.latchLen = latchOf s.cfg i)

/-! ### What acceptance comes to -/

/-- A command that sends nothing and has no latch leaves the block idle, whatever it does to `BRIGHT`. -/
theorem bytesSent_idle (h : s.Inv) (ho : s.offered i) (hi : latchOf s.cfg i = 0) (level : Level2) :
    s.BytesSent i { s.accepted with bright := level } := by
  have hq := quiet_accepted ho
  obtain ⟨-, hp, hoe, -⟩ := ho
  obtain ⟨-, hdout, -, -, -, hg, hborrowed⟩ := (inv_idle_iff hp).1 h
  exact ⟨⟨hq, rfl, hoe, hdout, hg, rfl, rfl, rfl⟩, .inl ⟨hp, hborrowed, hi⟩⟩

/-- An empty frame begins its latch. -/
theorem bytesSent_latch (h : s.Inv) (ho : s.offered i) (ls : Bool)
    (hl : (s.accepted.unguarded true ls).enterLatched.latchLen = latchOf s.cfg i) :
    s.BytesSent i (s.accepted.unguarded true ls).enterLatched := by
  have hq := quiet_accepted ho
  obtain ⟨-, hp, hoe, -⟩ := ho
  obtain ⟨-, hdout, -⟩ := (inv_idle_iff hp).1 h
  exact ⟨⟨hq, rfl, hoe, hdout, rfl, rfl, rfl, rfl⟩, .inr ⟨rfl, rfl, hl⟩⟩

/-- The two immediates of a pixel (R150). -/
theorem fields_immOf (w1 w2 : Byte) :
    (immOf w1 w2).extractLsb' 16 8 = w1 ∧ (immOf w1 w2).extractLsb' 8 8 = w2 :=
  ⟨(BitVec.extractLsb'_append_eq_of_le (by decide)).trans BitVec.extractLsb'_append_eq_left,
    (BitVec.extractLsb'_append_eq_of_le (by decide)).trans BitVec.extractLsb'_append_eq_right⟩

/-- They are the bytes to come. -/
theorem pending_immOf (s : State) (w1 w2 : Byte) : (s.loadImm (immOf w1 w2) 2).pending = [w1, w2] := by
  obtain ⟨h1, h2⟩ := fields_immOf w1 w2
  simp only [State.pending, State.loadImm_srck, State.loadImm_imm, State.loadImm_rem, h1, h2]
  rfl

/-- The state in which a pixel is prepared: two immediates after its first wire byte. -/
def State.pixelReady (s : State) (x : Pixel) : State :=
  (s.loadImm (immOf (wire3 s.cfg.wireOrder x).w1 (wire3 s.cfg.wireOrder x).w2) 2).unguarded false false

/-- A pixel is prepared by the commands whose bytes it is. -/
theorem prepares_pixel (ho : s.offered i) (x : Pixel) (hx : wireBytes s i = (wire3 s.cfg.wireOrder x).toList)
    (hl : latchOf s.cfg i = 0) (hr : commandReads s.cfg i = []) :
    s.Prepares i (s.accepted.pixelReady x) (wire3 s.cfg.wireOrder x).w0 := by
  have hq := quiet_accepted ho
  obtain ⟨-, -, hoe, -⟩ := ho
  refine ⟨hq, rfl, hoe, rfl, rfl, rfl, ⟨fun _ => le_rfl, nofun⟩, ?_, hr.symm, .inl ⟨rfl, hl⟩⟩
  rw [hx]
  exact congrArg (List.cons _) (pending_immOf s.accepted _ _)

/-- `SEND_BYTE` has no byte after its first. -/
theorem prepares_sendByte {v : Byte} (ho : s.offered (.sendByte v)) :
    s.Prepares (.sendByte v) ((s.accepted.loadImm 0 0).unguarded false false) v := by
  have hq := quiet_accepted ho
  obtain ⟨-, -, hoe, -⟩ := ho
  exact ⟨hq, rfl, hoe, rfl, rfl, rfl, ⟨fun _ => Nat.zero_le 2, nofun⟩, rfl, rfl, .inl ⟨rfl, rfl⟩⟩

/-- `SEND_STREAM` has the rest of its buffer to send. -/
theorem prepares_sendStream {len : Count} (ho : s.offered (.sendStream len)) (hl : len ≠ 0) :
    s.Prepares (.sendStream len) ((s.accepted.takeGuard false).loadBuf len) (s.buf.get 0) := by
  have hq := quiet_accepted ho
  obtain ⟨-, -, hoe, -⟩ := ho
  have hpos := count_pos_iff.2 hl
  have hrem := toNat_sub_one hpos
  have hlt := len.isLt
  refine ⟨hq, rfl, hoe, rfl, rfl, rfl, ⟨nofun, fun _ => ?_⟩, ?_, ?_, .inr ⟨rfl, rfl⟩⟩
  · change 1 + (len - 1).toNat ≤ 65535
    omega
  · rw [wireBytes_sendStream s hl, ← hrem]
    rfl
  · rw [commandReads, ← hrem]
    rfl

/-- `CLEAR` has zeros to send. -/
theorem prepares_clear {n : Count} (hc : s.cfg.WellFormed) (ho : s.offered (.clear n)) (hn : n ≠ 0) :
    s.Prepares (.clear n) ((s.accepted.takeGuard true).loadZero (clearRem n)) 0 := by
  have hq := quiet_accepted ho
  obtain ⟨-, -, hoe, -, -, -, hm⟩ := ho
  obtain ⟨-, -, -, ⟨hmax, -⟩, -⟩ := hc
  refine ⟨hq, rfl, hoe, rfl, rfl, rfl, ⟨nofun, nofun⟩, ?_, rfl, .inr ⟨rfl, rfl⟩⟩
  rw [wireBytes_clear s hn, ← clearRem_toNat hn ((hm n rfl).trans hmax)]
  rfl

/-- What the accept tick of a command comes to: nothing to send, or a first byte started. -/
theorem step_offered_cases (h : s.Inv) (ho : s.offered i) :
    (∃ t, step s = .next t ∧ s.BytesSent i t ∧ wireBytes s i = [] ∧ commandReads s.cfg i = []) ∨
    ∃ a b, step s = .next (a.startTx b) ∧ s.Prepares i a b := by
  have hc := h.1
  have hstep := step_offered hc ho
  have ⟨_, hp, hon, _, _, hi, hmax⟩ := ho
  have hoe : s.accepted.oe = true := hon
  cases i with
  | init =>
    have hinit : exec .init s.accepted = .next s.accepted := initCompletes.2 s.accepted h hp hoe
    exact .inl ⟨_, hstep.trans hinit, bytesSent_idle h ho rfl s.bright, rfl, rfl⟩
  | setBright level =>
    exact .inl ⟨_, hstep.trans (exec_setBright (bne_iff_ne.1 hi) _), bytesSent_idle h ho rfl level, rfl, rfl⟩
  | sendByte v => exact .inr ⟨_, _, hstep.trans (exec_sendByte hoe v), prepares_sendByte ho⟩
  | writeColor r g b =>
    exact .inr ⟨_, _, hstep.trans (exec_writeColor hoe r g b), prepares_pixel ho ⟨r, g, b⟩ rfl rfl rfl⟩
  | writeHue hue =>
    cases hx : hueRgb hue s.bright with
    | none =>
      exact .inl ⟨_, hstep.trans (exec_writeHue_none hoe hx), bytesSent_idle h ho rfl s.bright,
        wireBytes_writeHue_none hx, rfl⟩
    | some x =>
      exact .inr ⟨_, _, hstep.trans (exec_writeHue hoe hx), prepares_pixel ho x (wireBytes_writeHue hx) rfl rfl⟩
  | sendStream len =>
    by_cases hl : len = 0
    · subst hl
      exact .inl ⟨_, hstep.trans (exec_sendStream_zero hoe), bytesSent_latch h ho false rfl, rfl, rfl⟩
    · exact .inr ⟨_, _, hstep.trans (exec_sendStream hoe hl), prepares_sendStream ho hl⟩
  | clear n =>
    by_cases hn : n = 0
    · subst hn
      exact .inl ⟨_, hstep.trans (exec_clear_zero hoe), bytesSent_latch h ho true rfl, rfl, rfl⟩
    · exact .inr ⟨_, _, hstep.trans (exec_clear hoe hn (hmax n rfl)), prepares_clear hc ho hn⟩

/-! ### The bytes, the latch, and the whole command -/

/-- Where the bytes of a prepared command leave the block. -/
theorem State.Prepares.bytesSent (ha : s.Prepares i a b) (hv : (a.startTx b).Sent v) : s.BytesSent i v := by
  rw [State.Sent, endOfBytes_eq] at hv
  refine ⟨⟨?quiet, ?cfg, ?oe, ?dout, ?guard, ?ie, ?buf, ?timingFault⟩, ?latch⟩
  case quiet => rw [hv]; exact ha.quiet
  case cfg => rw [hv]; exact ha.cfg
  case oe => rw [hv]; exact ha.oe
  case dout => rw [hv]
  case guard => rw [hv]
  case ie => rw [hv]; exact ha.ie
  case buf => rw [hv]; exact ha.buf
  case timingFault => rw [hv]; exact ha.timingFault
  case latch =>
    obtain ⟨hd, hl⟩ | ⟨hd, hl⟩ := ha.latch
    · exact .inl ⟨by rw [hv]; simp [hd], by rw [hv]; simp [hd], hl⟩
    · exact .inr ⟨by rw [hv]; simp [hd], by rw [hv]; simp [hd], by rw [hv]; exact hl⟩

/-- The bytes of a command that has some, from the tick after acceptance to the end of the last. -/
theorem State.Prepares.stretch (hc : s.cfg.WellFormed) (ha : s.Prepares i a b) :
    ∃ v, Stretch (Pulsing a.ie) (8 * s.cfg.p * (wireBytes s i).length) (a.startTx b) v
      (expand (bytesTrace s.cfg (wireBytes s i))) (commandReads s.cfg i) ∧ s.BytesSent i v := by
  have hs : (a.startTx b).Sending := ⟨ha.quiet, ha.cfg ▸ hc, rfl, ha.oe, rfl, rfl⟩
  obtain ⟨v, hrun, hsent⟩ := hs.stretch_bytes rfl ha.source rfl
  have hlength : (wireBytes s i).length = a.rem.toNat + 1 := by
    rw [← ha.bytes, List.length_cons, length_pending ha.source]
  refine ⟨v, ?_, ?_⟩
  · rw [hlength, ← ha.bytes, ← ha.reads, ← ha.cfg]
    exact hrun
  · exact ha.bytesSent hsent

/-- The accept tick and the bytes of a command. -/
theorem command_bytes (h : s.Inv) (ho : s.offered i) :
    ∃ t v, step s = .next t ∧ s.BytesSent i v ∧
      Stretch (Pulsing t.ie) (8 * s.cfg.p * (wireBytes s i).length) t v (expand (bytesTrace s.cfg (wireBytes s i)))
        (commandReads s.cfg i) := by
  obtain ⟨t, hstep, hsent, hbytes, hreads⟩ | ⟨a, b, hstep, hprep⟩ := step_offered_cases h ho
  · refine ⟨t, t, hstep, hsent, ?_⟩
    rw [hbytes, hreads]
    exact Stretch.nil _ t
  · obtain ⟨v, hrun, hsent⟩ := hprep.stretch h.1
    exact ⟨_, v, hstep, hsent, hrun⟩

/-- The latch of a command, if it has one, and then the block is idle. -/
theorem State.BytesSent.latch (hc : s.cfg.WellFormed) (hv : s.BytesSent i v) :
    ∃ u, Stretch (fun x => x.ph = .latched) (latchOf s.cfg i) v u (List.replicate (latchOf s.cfg i) .low) [] ∧
      s.Restored u ∧ u.ph = .idle ∧ u.borrowed = 0 := by
  obtain ⟨hres, ⟨hp, hb, hl⟩ | ⟨hp, hlcnt, hl⟩⟩ := hv
  · rw [hl]
    exact ⟨v, Stretch.nil _ v, hres, hp, hb⟩
  · have hpad : v.pad = .low := by
      rw [pad_init hres.oe, hres.dout]
      rfl
    have hlatch := stretch_latch hres.quiet (hres.cfg ▸ hc) hp hlcnt
    rw [hl, hpad] at hlatch
    exact ⟨_, hlatch, ⟨hres.quiet, hres.cfg, hres.oe, hres.dout, hres.guard, hres.ie, hres.buf, hres.timingFault⟩,
      rfl, rfl⟩

/-- The busy ticks of a command are those of its bytes and of its latch (R246). -/
theorem busyTicks_eq (s : State) (i : Instr) :
    busyTicks s.cfg i = 8 * s.cfg.p * (wireBytes s i).length + latchOf s.cfg i := by
  cases i with
  | init => rfl
  | setBright level => rfl
  | sendByte v => simp [busyTicks, wireBytes, latchOf]
  | writeColor r g b =>
    simp only [busyTicks, wireBytes, latchOf, WireBytes.toList, List.length_cons, List.length_nil]
    omega
  | writeHue hue =>
    cases hx : hueRgb hue s.bright with
    | none =>
      have hge := (hueRgb_eq_none_iff hue s.bright).1 hx
      rw [wireBytes_writeHue_none hx, busyTicks, if_neg (Nat.not_lt.2 hge)]
      rfl
    | some x =>
      have hlt : hue.toNat < 192 := by
        by_contra hge
        rw [(hueRgb_eq_none_iff hue s.bright).2 (Nat.le_of_not_lt hge)] at hx
        cases hx
      rw [wireBytes_writeHue hx, busyTicks, if_pos hlt]
      simp only [WireBytes.toList, List.length_cons, List.length_nil, latchOf]
      omega
  | sendStream len => simp [busyTicks, wireBytes, latchOf, bufBytes]
  | clear n =>
    simp only [busyTicks, wireBytes, latchOf, List.length_replicate]
    ring

/-- From the tick after acceptance on a command is busy for exactly its busy ticks, and then the block is idle. -/
theorem command_run (h : s.Inv) (ho : s.offered i) :
    ∃ t u, step s = .next t ∧ s.Restored u ∧ u.ph = .idle ∧ u.borrowed = 0 ∧
      Stretch (fun x => x.busy = true) (busyTicks s.cfg i) t u
        (expand (bytesTrace s.cfg (wireBytes s i)) ++ List.replicate (latchOf s.cfg i) .low)
        (commandReads s.cfg i) := by
  obtain ⟨t, v, hstep, hsent, hbytes⟩ := command_bytes h ho
  obtain ⟨u, hlatch, hres, hp, hb⟩ := hsent.latch h.1
  refine ⟨t, u, hstep, hres, hp, hb, ?_⟩
  have hall := (hbytes.mono (Q := fun x => x.busy = true) fun x hx => by simp [State.busy, hx.1]).trans
    (hlatch.mono (Q := fun x => x.busy = true) fun x hx => by simp [State.busy, hx])
  rw [List.map_nil, List.append_nil, ← busyTicks_eq] at hall
  exact hall

/-- Settles O46: the accept tick, then the busy ticks of the command. -/
theorem commandTrace : Obligations.CommandTrace := by
  intro s i h ho
  have ⟨_, _, _, hm, _⟩ := ho
  obtain ⟨t, u, hstep, hres, hp, hb, hrun⟩ := command_run h ho
  refine ⟨?pads, fun k hk hkb => ?busy, u, ?ends, ?rest⟩
  case pads => rw [Nat.add_comm, padTrace_tick (nextMove_nil hm) hstep, hrun.pads, pad_offered h ho]
  case busy =>
    obtain ⟨j, rfl⟩ := Nat.exists_eq_add_of_le' hk
    rw [runSteps_succ hstep]
    exact hrun.during j hkb
  case ends => rw [Nat.add_comm, runSteps_succ hstep, hrun.ends]
  case rest =>
    exact ⟨by simp [State.busy, hp], hres.dout, hres.oe, hres.guard, hres.ie, hres.buf, hb, hres.timingFault,
      hres.quiet⟩

end Sys2Proof.Machine
end

section
/-! PROOFS. What follows from the run of a whole command: its reads of `BUF`, its pulses under any holds, `CLEAR`
against a stream of zeros, and the pixels that a receiver reads (spec/20_memory.md rules R51, R56 and R57,
spec/41_frame_transmitter.md rules R135 and R141, spec/43_string_controller.md rule R173, spec/30_encoding.md rule
R102). -/

namespace Sys2Proof.Machine

variable {s t u : State} {i : Instr} {k : Nat}

/-! ### The reads of a command -/

/-- The reads of a command from its accept tick to its end. -/
theorem bufReads_command (h : s.Inv) (ho : s.offered i) :
    bufReads (1 + busyTicks s.cfg i) s =
      ((s.bufAddr false false).map (fun a => (0, a.toNat))).toList ++ (commandReads s.cfg i).map (later 1) := by
  obtain ⟨t, u, hstep, -, -, -, hrun⟩ := command_run h ho
  rw [bufReads_add (runSteps_succ hstep 0), bufReads_one, hrun.reads]

/-- The command that the accept tick of an offered command takes. -/
theorem commandTaken_offered (ho : s.offered i) : s.commandTaken false = some i := by
  obtain ⟨-, hp, -, -, hw, hi, -⟩ := ho
  exact commandTaken_accept hp hw (decodeOfEncode i hi)

/-- The accept tick of a stream reads byte 0, if it has one (R57). -/
theorem bufAddr_offered_sendStream {len : Count} (ho : s.offered (.sendStream len)) :
    s.bufAddr false false = if len = 0 then none else some 0 := by
  have ⟨_, hp, hoe, _⟩ := ho
  simp [State.bufAddr, hp, hoe, commandTaken_offered ho]

/-- The accept tick of every other command reads nothing. -/
theorem bufAddr_offered_other (ho : s.offered i) (hi : ∀ len, i ≠ .sendStream len) : s.bufAddr false false = none := by
  have ⟨_, hp, _⟩ := ho
  simp only [State.bufAddr, hp, commandTaken_offered ho]
  split
  · exact absurd (Option.some.inj ‹_›) (hi _)
  · rfl

/-- The reads of a stream: byte `j` in the tick before its first pulse. -/
theorem reads_stream {p len : Nat} (hp : 0 < p) (hl : len ≠ 0) :
    [(0, 0)] ++ ((List.range (len - 1)).map (fun j => (8 * p * (j + 1) - 1, 1 + j))).map (later 1) =
      (List.range len).map (fun j => (8 * p * j, j)) := by
  obtain ⟨n, rfl⟩ := Nat.exists_eq_succ_of_ne_zero hl
  rw [Nat.succ_sub_one, List.range_succ_eq_map, List.map_cons, List.map_map, List.map_map]
  refine congrArg (List.cons _) (List.map_congr_left fun j _ => ?_)
  have hpos : 0 < 8 * p * (j + 1) := by positivity
  simp only [Function.comp_apply, later, Nat.succ_eq_add_one, Prod.mk.injEq]
  omega

/-- Settles O48: the read of the accept tick and those of the bytes; a command with no read in its list makes none. -/
theorem streamReadsEachByteOnce : Obligations.StreamReadsEachByteOnce := by
  intro s i h ho
  have hreads := bufReads_command h ho
  refine ⟨?stream, fun hi k hk => ?other⟩
  case stream =>
    rintro len rfl
    refine hreads.trans ?_
    have hp : 0 < s.cfg.p := Nat.zero_lt_of_lt (highTicks_bounds h.1 false).2
    rw [bufAddr_offered_sendStream ho, commandReads]
    by_cases hl : len = 0
    · subst hl
      rfl
    · rw [if_neg hl, ← reads_stream hp (count_pos_iff.2 hl).ne']
      rfl
  case other =>
    have hnone : commandReads s.cfg i = [] := by
      cases i with
      | sendStream len => exact absurd rfl (hi len)
      | _ => rfl
    rw [bufAddr_offered_other ho hi, hnone] at hreads
    obtain ⟨t, u, hstep, -, -, -, hrun⟩ := command_run h ho
    have hend := runSteps_add (runSteps_succ hstep 0) hrun.ends
    obtain ⟨v, hv⟩ := runSteps_of_le (Nat.le_add_left_of_le hk) hend
    refine ⟨v, hv, ?_⟩
    have hk' := List.filterMap_eq_nil_iff.1 hreads k (List.mem_range.2 (by omega))
    simpa [hv] using hk'

/-! ### Pulses under holds -/

/-- A plain step that goes on, as the first of the listed moves: a hold that is ignored makes no difference. -/
theorem step_hold_ignored (hm : s.moves = []) (h : step s = .next t) (hi : s.ie = false ∨ s.ph = .idle) (hold : Bool)
    (ms : List Move) : step { s with moves := .tick false hold :: ms } = .next { t with moves := ms } := by
  obtain ⟨hr, hc, -⟩ := step_cases h
  obtain ⟨htick, -⟩ := tick_of_plain_step hm h
  obtain ⟨-, hbuf, -⟩ := tick_frame htick
  have hplain := tick_around (m := s.buf) (ms := ms) htick fun _ _ => rfl
  have ht : t.around s.buf t.offer ms = { t with moves := ms } := by rw [← hbuf]; rfl
  rw [ht] at hplain
  rw [step_move (s := { s with moves := .tick false hold :: ms }) hr hc rfl]
  exact (tick_hold_ignored (s := { s with moves := ms }) hi hold).trans hplain

/-- Holds that are ignored leave the pad levels of a run as they are with nothing to come. -/
theorem padTrace_holds (holds : List Bool) (hm : s.moves = []) (hend : runSteps holds.length s = some u)
    (hi : ∀ j, j < holds.length → ∃ v, runSteps j s = some v ∧ (v.ie = false ∨ v.ph = .idle)) :
    padTrace holds.length { s with moves := holds.map (fun h => .tick false h) } = padTrace holds.length s := by
  induction holds generalizing s with
  | nil => rfl
  | cons hold holds ih =>
    obtain ⟨t, ht, hrest⟩ := runSteps_succ_inv hend
    obtain ⟨v, hv, hiv⟩ := hi 0 (Nat.succ_pos _)
    cases hv
    rw [List.length_cons, List.map_cons, padTrace_tick (nextMove_nil hm) ht,
      padTrace_tick (rst := false) (hold := hold) rfl (step_hold_ignored hm ht hiv hold _)]
    refine congrArg (List.cons _) (ih (tick_of_plain_step hm ht).2 hrest fun j hj => ?_)
    rw [← runSteps_succ ht]
    exact hi (j + 1) (Nat.succ_lt_succ hj)

/-- A guarded frame that has a byte on the wire has `IE` at 0 (R134). -/
theorem exec_guarded_ie (hi : (∃ len, i = .sendStream len) ∨ ∃ n, i = .clear n) (he : exec i s = .next t)
    (hp : t.ph = .transmitting) : t.ie = false := by
  obtain ⟨_, rfl⟩ | ⟨_, -, rfl⟩ | ⟨_, -, rfl⟩ := exec_guarded_cases hi he
  · cases hp
  · rfl
  · rfl

/-- Settles O47: acceptance finds the block idle, and from then to the last pulse the guard keeps `IE` at 0. -/
theorem guardedPulsesIgnoreHolds : Obligations.GuardedPulsesIgnoreHolds := by
  intro s i holds h ho hi hlen
  have ⟨_, hp, _, hm, _⟩ := ho
  obtain ⟨t, v, hstep, -, hrun⟩ := command_bytes h ho
  rw [Nat.add_comm] at hlen
  have hend : runSteps holds.length s = some v := by rw [hlen, runSteps_succ hstep, hrun.ends]
  rw [padTrace_holds holds hm hend fun j hj => ?ignored, hlen, padTrace_tick (nextMove_nil hm) hstep, hrun.pads,
    pad_offered h ho]
  case ignored =>
    cases j with
    | zero => exact ⟨s, rfl, .inr hp⟩
    | succ j =>
      obtain ⟨u, hu, hpu, hie⟩ := hrun.during j (by omega)
      obtain ⟨w, hw, hpt, -⟩ := hrun.during 0 (by omega)
      cases hw
      have ht := exec_guarded_ie hi ((step_offered h.1 ho).symm.trans hstep) hpt
      exact ⟨u, (runSteps_succ hstep j).trans hu, .inl (hie.trans ht)⟩

/-! ### The pad for ever -/

/-- How much of a padding is there makes no difference to a beginning that is shorter than the rest of it. -/
theorem take_replicate_add {α : Type} (l : List α) (x : α) (m k : Nat) :
    (l ++ List.replicate m x ++ List.replicate k x).take k = (l ++ List.replicate k x).take k := by
  rw [List.append_assoc, ← List.replicate_add, List.take_append, List.take_append, List.take_replicate,
    List.take_replicate]
  congr 2
  omega

/-- The pad levels of a command for any number of ticks: LOW, its pulses, and LOW for ever. -/
theorem padTrace_command (h : s.Inv) (ho : s.offered i) (k : Nat) :
    padTrace k s = (Level.low :: expand (bytesTrace s.cfg (wireBytes s i)) ++ List.replicate k Level.low).take k := by
  have ⟨_, _, _, hm, _⟩ := ho
  obtain ⟨hpads, -, -⟩ := commandTrace s i h ho
  obtain ⟨t, u, hstep, hres, hp, -, hrun⟩ := command_run h ho
  have hend : runSteps (1 + busyTicks s.cfg i) s = some u := runSteps_add (runSteps_succ hstep 0) hrun.ends
  have hidle := stretch_idle hres.quiet (hres.cfg ▸ h.1) hp k
  have hlow : u.pad = .low := by
    rw [pad_init hres.oe, hres.dout]
    rfl
  rw [padTrace_take hm (Nat.le_add_left k _) (runSteps_add hend hidle.ends), padTrace_add hend, hpads, hidle.pads, hlow,
    ← List.cons_append, take_replicate_add]

/-- The bytes of a stream over a buffer of zeros. -/
theorem bufBytes_zero {m : Memory} {len : Nat} (hz : ∀ i, i < len → m.get i = 0) :
    bufBytes m len = List.replicate len 0 :=
  List.eq_replicate_iff.2 ⟨by simp [bufBytes], by simpa [bufBytes] using hz⟩

/-- Settles O50: the two commands put the same bytes on the wire, from blocks that differ in the offer. -/
theorem clearEqualsZeroStream : Obligations.ClearEqualsZeroStream := by
  intro s n len h ho hlen hz
  have ⟨hr, hp, hoe, hm, _⟩ := ho
  have ho' : State.offered { s with offer := some (encode (.sendStream len)) } (.sendStream len) :=
    ⟨hr, hp, hoe, hm, rfl, rfl, nofun⟩
  have hbytes : wireBytes { s with offer := some (encode (.sendStream len)) } (.sendStream len) =
      wireBytes s (.clear n) :=
    (bufBytes_zero hz).trans (congrArg (List.replicate · 0) hlen)
  refine ⟨fun k => ?pads, fun hl => ?busy⟩
  case pads =>
    rw [padTrace_command h ho,
      padTrace_command (s := { s with offer := some (encode (.sendStream len)) }) h ho', hbytes]
  case busy =>
    rw [busyTicks, busyTicks, hl, hlen]
    ring

/-! ### From the pad to the pixels -/

/-- Segments of one level in a row are one segment. -/
theorem joinSeg_joinSeg (l : Level) (j k : Nat) (t : Trace) :
    joinSeg ⟨l, j⟩ (joinSeg ⟨l, k⟩ t) = joinSeg ⟨l, j + k⟩ t := by
  cases t with
  | nil => simp [joinSeg]
  | cons g t => by_cases hl : l = g.level <;> simp [joinSeg, hl, Nat.add_assoc]

/-- The trace of pad levels that begin with a segment. -/
theorem traceOf_replicate (l : Level) (k : Nat) (ls : List Level) :
    traceOf (List.replicate (k + 1) l ++ ls) = joinSeg ⟨l, k + 1⟩ (traceOf ls) := by
  induction k with
  | zero => rfl
  | succ k ih =>
    rw [List.replicate_succ, List.cons_append]
    change joinSeg ⟨l, 1⟩ (traceOf (List.replicate (k + 1) l ++ ls)) = _
    rw [ih, joinSeg_joinSeg, Nat.add_comm 1]

/-- The trace of the pad levels of segments that are not empty is their normal form (R15). -/
theorem traceOf_expand {t : Trace} (ht : ∀ g ∈ t, 0 < g.ticks) : traceOf (expand t) = normalise t := by
  induction t with
  | nil => rfl
  | cons g t ih =>
    obtain ⟨hg, ht⟩ := List.forall_mem_cons.1 ht
    obtain ⟨k, hk⟩ := Nat.exists_eq_add_of_le' hg
    change traceOf (List.replicate g.ticks g.level ++ expand t) = joinSeg g (normalise t)
    rw [hk, traceOf_replicate, ih ht, ← hk]

/-- No segment of the pulses of a byte list is empty. -/
theorem bytesTrace_pos {c : Config} (hc : c.WellFormed) (bs : List Byte) : ∀ g ∈ bytesTrace c bs, 0 < g.ticks := by
  intro g hg
  rw [bytesTrace_eq] at hg
  obtain ⟨b, -, hb⟩ := List.mem_flatMap.1 hg
  obtain ⟨hpos, hlt⟩ := highTicks_bounds hc b
  obtain rfl | rfl := List.mem_pair.1 hb
  · exact hpos
  · exact Nat.sub_pos_of_lt hlt

/-- The wire trace of a stream from acceptance to its end: an idle tick, its bytes, its latch. -/
theorem wireTrace_stream {len : Count} (h : s.Inv) (ho : s.offered (.sendStream len)) :
    wireTrace (1 + busyTicks s.cfg (.sendStream len)) s =
      normalise (⟨.low, 1⟩ :: bytesTrace s.cfg (bufBytes s.buf len.toNat) ++ latchTrace s.cfg.latchTicks) := by
  obtain ⟨hpads, -, -⟩ := commandTrace s _ h ho
  have hlatch : 0 < s.cfg.latchTicks := by
    obtain ⟨⟨⟨hf, -⟩, -, ⟨hl, -⟩, -⟩, -⟩ := h
    exact pos_of_longEnough hl hf
  have hpos : ∀ g ∈ (⟨.low, 1⟩ :: bytesTrace s.cfg (bufBytes s.buf len.toNat) ++ latchTrace s.cfg.latchTicks : Trace),
      0 < g.ticks := by
    simp only [latchTrace, List.mem_append, List.mem_cons, List.not_mem_nil, or_false]
    rintro g ((rfl | hg) | rfl)
    · exact Nat.one_pos
    · exact bytesTrace_pos h.1 _ g hg
    · exact hlatch
  have hexpand : expand (bytesTrace s.cfg (bufBytes s.buf len.toNat) ++ latchTrace s.cfg.latchTicks) =
      expand (bytesTrace s.cfg (wireBytes s (.sendStream len))) ++
        List.replicate (latchOf s.cfg (.sendStream len)) .low := by
    rw [expand_append]
    simp only [expand, latchTrace, List.flatMap_singleton]
    rfl
  rw [← traceOf_expand hpos, wireTrace, hpads, ← hexpand]
  rfl

/-- Settles O55: the wire trace reads as the events of the bytes, and these as one frame of the pixels. -/
theorem streamShowsPixels : Obligations.StreamShowsPixels := by
  intro s len xs h ho hxs hlen hbuf
  have ⟨_, _, ⟨hlatch, _⟩, _⟩ := h.1
  obtain ⟨bits, hframes, hpixels⟩ := pixelsReadBack s.cfg.wireOrder xs hxs
  refine ⟨_, bits, ?_, hframes, hpixels⟩
  rw [wireTrace_stream h ho, hbuf]
  exact (readingRoundTrip s.cfg _ _ h.1 hlatch).2 1

end Sys2Proof.Machine
end
